-- ==== Sys2Proof/Word.lean ====
section
/-!
DEFINITION. The word types of the SHA-256 core (00_scope.md R6, R8).
All values are unsigned; nothing in the core is signed.
-/

namespace Sys2Proof

/-- A byte of the message memory or of HEX. -/
abbrev Byte := BitVec 8

/-- `u32` of 00_scope.md R8: a register, a schedule word, a bus word or a bus offset. -/
abbrev Word := BitVec 32

/-- `u64` of 00_scope.md R8: LEN and the bit length. -/
abbrev DWord := BitVec 64

/-- The four byte strobes of a bus write (20_memory.md R61). -/
abbrev Strobe := BitVec 4

end Sys2Proof
end

