-- ==== Sys2Proof/Machine/Operators.lean ====
section
/-!
DEFINITION. The bitwise operators and the 32-bit adder (40_operators.md), the functions built from them
(42_scheduler.md R150, R151, 43_compressor.md R173 to R176).
None has state, flags or error conditions.
-/

namespace Sys2Proof.Machine

/-- The 32-bit adder: the carry out of bit 31 is discarded (40_operators.md R110). -/
def add32 (x y : Word) : Word := x + y

/-- Right rotation by `n` (40_operators.md R111), with `rotr(x, n) = rotr(x, n mod 32)`. -/
def rotr (x : Word) (n : Nat) : Word := x.rotateRight n

/-- Logical right shift by `n`, filling with zeros (40_operators.md R112). -/
def shr (x : Word) (n : Nat) : Word := x >>> n

/-- `x ⊕ y` (40_operators.md R113). -/
def xor32 (x y : Word) : Word := x ^^^ y

/-- `x ∧ y` (40_operators.md R114). -/
def and32 (x y : Word) : Word := x &&& y

/-- `¬x` (40_operators.md R115). -/
def not32 (x : Word) : Word := ~~~x

/-- σ0 (42_scheduler.md R150). -/
def sigma0 (x : Word) : Word := xor32 (xor32 (rotr x 7) (rotr x 18)) (shr x 3)

/-- σ1 (42_scheduler.md R151). -/
def sigma1 (x : Word) : Word := xor32 (xor32 (rotr x 17) (rotr x 19)) (shr x 10)

/-- Ch (43_compressor.md R173). -/
def ch (x y z : Word) : Word := xor32 (and32 x y) (and32 (not32 x) z)

/-- Maj (43_compressor.md R174). -/
def maj (x y z : Word) : Word := xor32 (xor32 (and32 x y) (and32 x z)) (and32 y z)

/-- Σ0 (43_compressor.md R175). -/
def bigSigma0 (x : Word) : Word := xor32 (xor32 (rotr x 2) (rotr x 13)) (rotr x 22)

/-- Σ1 (43_compressor.md R176). -/
def bigSigma1 (x : Word) : Word := xor32 (xor32 (rotr x 6) (rotr x 11)) (rotr x 25)

end Sys2Proof.Machine
end

