-- ==== Sys2Proof/Config.lean ====
section
/-!
DEFINITION. What an implementation of the core fixes (00_scope.md R7), and the free value.
-/

namespace Sys2Proof

/-- The implementation parameter of 00_scope.md R7 that changes behaviour.
The other open parameters are not here: BUS_PROTOCOL is timing, CORE_BASE is the platform's (log entry 12),
and SAME_CYCLE_ORDER is the order of the inputs in the state (log entry 2). -/
structure Config where
  /-- MSG_CAP, the capacity of the message memory in bytes; register CAP reads it (10_state.md R30). -/
  msgCap : Word
  deriving DecidableEq, Repr

/-- The legal values of MSG_CAP (00_scope.md R7): multiples of 4 with 64 ≤ MSG_CAP ≤ 0xFFFF_0000. -/
abbrev Config.Legal (c : Config) : Prop :=
  c.msgCap.toNat % 4 = 0 ∧ 64 ≤ c.msgCap.toNat ∧ c.msgCap.toNat ≤ 0xFFFF0000

/-- The configuration the test vectors use (95_test_vectors.md, introduction): MSG_CAP = 0x1000.
DESIGN CHOICE, log entry 1: it stands in `State.reset` only. -/
def Config.standard : Config := { msgCap := 0x00001000#32 }

/-- FREE VALUE, log entry 6 (DESIGN CHOICE: the rules leave the result open).
The `err` response of a write to a misaligned address presented while `rst_n` = 0.
The argument is the state's `draws` counter, so that two such writes need not be answered alike. -/
opaque Config.resetWriteErr : Nat → Bool

end Sys2Proof
end

