-- ==== Sys2Proof/Syntax.lean ====
section
/-!
DEFINITION. The syntax of the core: the commands of the opcode table, the host's bus transactions, the
turns of an execution, and the bus responses.
-/

namespace Sys2Proof

/-- The commands of 30_encoding.md R93, one per row of spec/opcode_table.json.
No command carries an operand (R92). -/
inductive Instr where
  /-- 0x0000_0000 (45_commands.md R211). -/
  | nop
  /-- 0x0000_0001 (45_commands.md R212). -/
  | init
  /-- 0x0000_0002 (45_commands.md R213). -/
  | hash
  deriving DecidableEq, Repr

/-- A host transaction (20_memory.md R62 to R67): one aligned or misaligned 32-bit word at a byte offset. -/
inductive Txn where
  | read (addr : Word)
  | write (addr wdata : Word) (wstrb : Strobe)
  deriving DecidableEq, Repr

/-- The offset a transaction is presented at. -/
def Txn.addr : Txn → Word
  | .read a => a
  | .write a _ _ => a

/-- One turn of an execution (20_memory.md R60): a micro-step of the sequencer, a transaction of the host, or a
reset, the last with the transaction that is presented while `rst_n` = 0, if any (70_reset_and_hazards.md R270). -/
inductive Input where
  | sequencer
  | bus (t : Txn)
  | reset (presented : Option Txn)
  deriving DecidableEq, Repr

/-- What the bus answers to a transaction: a read returns `rdata` and `err`, a write returns `err`
(20_memory.md R62, R65, R66). -/
inductive Response where
  | read (rdata : Word) (err : Bool)
  | write (err : Bool)
  deriving DecidableEq, Repr

/-- What lies at a bus offset: the address map of 20_memory.md R68, one constructor per row. -/
inductive Loc where
  | id
  | ctrl
  | status
  | lenLo
  | lenHi
  | blkCnt
  | seq
  | nblk
  | cap
  | h (k : Fin 8)
  | iv (k : Fin 8)
  | wv (k : Fin 8)
  /-- HEX[4n] to HEX[4n+3]. -/
  | hex (n : Fin 16)
  | w (t : Fin 64)
  | k (i : Fin 64)
  /-- MSG[j] to MSG[j+3]. -/
  | msg (j : Nat)
  | reserved
  deriving DecidableEq, Repr

/-- The four causes of a rejection (60_exceptions.md R241, R247). -/
inductive ErrBit where
  | cmd
  | busy
  | len
  | wr
  deriving DecidableEq, Repr

end Sys2Proof
end

