-- ==== Sys2Proof/Machine/State.lean ====
section
/-!
DEFINITION. The state of the core (10_state.md R20), its reset value (R44), and the reasons a step can stop.
-/

namespace Sys2Proof.Machine

/-- PHASE, the three-bit sequencer phase (10_state.md R33). -/
inductive Phase where
  /-- 0: the sequencer does not step. -/
  | idle
  /-- 1: LOADW, EXPANDW. -/
  | sched
  /-- 2: LOADWV. -/
  | loadwv
  /-- 3: ROUND. -/
  | round
  /-- 4: FOLD. -/
  | fold
  /-- 5: FORMAT. -/
  | format
  /-- 6: never reached. -/
  | unused6
  /-- 7: never reached. -/
  | unused7
  deriving DecidableEq, Repr

/-- The message memory (10_state.md R39): the written bytes, by index; an index not listed is UNWRITTEN. -/
abbrev Memory := List Host.Cell

/-- The complete state (10_state.md R20), then four fields of the model's own. -/
structure State where
  /-- H[0..7], the hash state register (R31). -/
  h : Vector Word 8
  /-- wv[0..7], the working variables a..h (R34). -/
  wv : Vector Word 8
  /-- W[0..63], the message schedule (R35). -/
  w : Vector Word 64
  /-- HEX[0..63], the formatted digest (R38). -/
  hex : Vector Byte 64
  /-- MSG[0..MSG_CAP−1], the message memory (R39). -/
  msg : Memory
  /-- LEN, the message length in bytes (R26). -/
  len : DWord
  /-- NBLK, the block count of the current or last HASH (R29). -/
  nblk : Word
  /-- BLK_CNT, the blocks folded so far in the current or last HASH (R27). -/
  blkCnt : Word
  /-- PHASE (R28, R33). -/
  phase : Phase
  /-- STEP (R28, R32). -/
  seqStep : BitVec 6
  /-- STATUS[0] (R25, R40). -/
  busy : Bool
  /-- STATUS[1] (R25, R40). -/
  done : Bool
  /-- STATUS[8] (R25, R41). -/
  errCmd : Bool
  /-- STATUS[9] (R25, R41). -/
  errBusy : Bool
  /-- STATUS[10] (R25, R41). -/
  errLen : Bool
  /-- STATUS[11] (R25, R41). -/
  errWr : Bool
  /-- The model's own (log entry 1): the implementation parameters, which no step writes. -/
  config : Config
  /-- The model's own (log entry 2): the turns still to come, the first one first. -/
  inputs : List Input
  /-- The model's own (log entry 4): the bus response of the step just made, none if it was no transaction. -/
  response : Option Response
  /-- The model's own (log entry 6): the counter the free value is taken at; a transaction presented with a reset
  advances it. -/
  draws : Nat
  deriving DecidableEq, Repr

/-- Why the machine stops. A HASH in progress never stops for a hardware error (45_commands.md R213). -/
inductive Fault where
  /-- The model fault of 60_exceptions.md R248, raised by LOADW for a message byte below LEN, and by a host read
  covering a byte, that nothing has written. SAFE: the hardware reads some unspecified value and goes on. -/
  | unwrittenMsgRead
  /-- A message byte at or above MSG_CAP, raised by the message read of LOADW or of the host, outside the range
  20_memory.md R70 gives (log entry 9). SAFE: no run reaches it, and the machine stops. -/
  | noSuchMsgByte
  /-- PAD(j) with j ≥ PLEN, raised by LOADW, outside the range 41_padder.md R132 gives (log entry 9).
  SAFE: no run reaches it, and the machine stops. -/
  | padOutOfRange
  /-- A turn of the sequencer with BUSY = 1 and PHASE 0, 6 or 7, where it is stuck (93_implementation_defined.md U3,
  log entry 8). SAFE: no run reaches it, and the machine stops. -/
  | sequencerStuck
  deriving DecidableEq, Repr

/-- Why an instruction has no meaning. -/
inductive Refusal where
  /-- An instruction of the table that the model gives no meaning yet, raised by `exec`'s arm for it.
  SAFE: the machine stops. No arm raises it: every command has its meaning. -/
  | notModelled (mnemonic : String)
  deriving DecidableEq, Repr

/-- The outcome of one step of this machine. -/
abbrev Result := Host.Outcome State Fault Refusal

/-- The state after reset (10_state.md R44), with every message byte UNWRITTEN (70_reset_and_hazards.md R272).
The last four fields are the model's choices (log entries 1 and 13). -/
def State.reset : State where
  h := Vector.replicate 8 0x00000000#32
  wv := Vector.replicate 8 0x00000000#32
  w := Vector.replicate 64 0x00000000#32
  hex := Vector.replicate 64 0x00#8
  msg := []
  len := 0#64
  nblk := 0#32
  blkCnt := 0#32
  phase := .idle
  seqStep := 0#6
  busy := false
  done := false
  errCmd := false
  errBusy := false
  errLen := false
  errWr := false
  config := Config.standard
  inputs := []
  response := none
  draws := 0

end Sys2Proof.Machine
end

