-- ==== Sys2Proof/Machine/Compressor.lean ====
section
/-!
DEFINITION. The compression engine and the two ROMs (43_compressor.md): the datapath of LOADWV, ROUND and FOLD.
-/

namespace Sys2Proof.Machine

/-- K[0..15] (43_compressor.md R171). -/
def kRom0 : Vector Word 16 := #v[
  0x428A2F98#32, 0x71374491#32, 0xB5C0FBCF#32, 0xE9B5DBA5#32, 0x3956C25B#32, 0x59F111F1#32, 0x923F82A4#32, 0xAB1C5ED5#32,
  0xD807AA98#32, 0x12835B01#32, 0x243185BE#32, 0x550C7DC3#32, 0x72BE5D74#32, 0x80DEB1FE#32, 0x9BDC06A7#32, 0xC19BF174#32]

/-- K[16..31] (43_compressor.md R171). -/
def kRom1 : Vector Word 16 := #v[
  0xE49B69C1#32, 0xEFBE4786#32, 0x0FC19DC6#32, 0x240CA1CC#32, 0x2DE92C6F#32, 0x4A7484AA#32, 0x5CB0A9DC#32, 0x76F988DA#32,
  0x983E5152#32, 0xA831C66D#32, 0xB00327C8#32, 0xBF597FC7#32, 0xC6E00BF3#32, 0xD5A79147#32, 0x06CA6351#32, 0x14292967#32]

/-- K[32..47] (43_compressor.md R171). -/
def kRom2 : Vector Word 16 := #v[
  0x27B70A85#32, 0x2E1B2138#32, 0x4D2C6DFC#32, 0x53380D13#32, 0x650A7354#32, 0x766A0ABB#32, 0x81C2C92E#32, 0x92722C85#32,
  0xA2BFE8A1#32, 0xA81A664B#32, 0xC24B8B70#32, 0xC76C51A3#32, 0xD192E819#32, 0xD6990624#32, 0xF40E3585#32, 0x106AA070#32]

/-- K[48..63] (43_compressor.md R171). -/
def kRom3 : Vector Word 16 := #v[
  0x19A4C116#32, 0x1E376C08#32, 0x2748774C#32, 0x34B0BCB5#32, 0x391C0CB3#32, 0x4ED8AA4A#32, 0x5B9CCA4F#32, 0x682E6FF3#32,
  0x748F82EE#32, 0x78A5636F#32, 0x84C87814#32, 0x8CC70208#32, 0x90BEFFFA#32, 0xA4506CEB#32, 0xBEF9A3F7#32, 0xC67178F2#32]

/-- The round-constant ROM K[0..63] (10_state.md R36, 43_compressor.md R171; log entry 14). -/
def kRom : Vector Word 64 := kRom0 ++ kRom1 ++ kRom2 ++ kRom3

/-- The initial-hash-value ROM IV[0..7] (10_state.md R37, 43_compressor.md R172; log entry 14). -/
def ivRom : Vector Word 8 := #v[
  0x6A09E667#32, 0xBB67AE85#32, 0x3C6EF372#32, 0xA54FF53A#32, 0x510E527F#32, 0x9B05688C#32, 0x1F83D9AB#32, 0x5BE0CD19#32]

/-- T1 of 43_compressor.md R177, with a..h = v[0..7]. -/
def roundT1 (v : Vector Word 8) (k w : Word) : Word :=
  add32 (add32 (add32 (add32 v[7] (bigSigma1 v[4])) (ch v[4] v[5] v[6])) k) w

/-- T2 of 43_compressor.md R177. -/
def roundT2 (v : Vector Word 8) : Word :=
  add32 (bigSigma0 v[0]) (maj v[0] v[1] v[2])

/-- The parallel assignment of one round (43_compressor.md R181). -/
def roundWords (v : Vector Word 8) (k w : Word) : Vector Word 8 :=
  #v[add32 (roundT1 v k w) (roundT2 v), v[0], v[1], v[2], add32 v[3] (roundT1 v k w), v[4], v[5], v[6]]

/-- The eight additions of FOLD; no carry passes between words (43_compressor.md R182). -/
def foldWords (h v : Vector Word 8) : Vector Word 8 :=
  Vector.ofFn fun k => add32 h[k] v[k]

/-- LOADWV (43_compressor.md R180). -/
def loadWv (s : State) : State := { s with wv := s.h }

/-- ROUND(i) (43_compressor.md R181). -/
def roundStep (s : State) (i : BitVec 6) : State :=
  { s with wv := roundWords s.wv (kRom[i.toNat]'i.isLt) (s.w[i.toNat]'i.isLt) }

/-- FOLD (43_compressor.md R182). -/
def foldStep (s : State) : State := { s with h := foldWords s.h s.wv }

end Sys2Proof.Machine
end

