-- ==== Sys2Proof/WellFormed.lean ====
section
/-!
DEFINITION. The well-formedness checks: of an instruction, of a transaction's offset, of a configuration.
-/

namespace Sys2Proof

/-- Every command is well formed: none has an operand field that could be out of range (30_encoding.md R92). -/
def Instr.wf : Instr → Bool
  | .nop => true
  | .init => true
  | .hash => true

/-- `addr[1:0] = 00` (20_memory.md R62). -/
def Txn.aligned (t : Txn) : Bool := t.addr.extractLsb' 0 2 == 0#2

/-- MSG_CAP has a legal value (00_scope.md R7). -/
def Config.wf (c : Config) : Bool := decide c.Legal

end Sys2Proof
end

