-- ==== Sys2Proof/Decode.lean ====
section
/-!
DEFINITION. The command decoder (30_encoding.md R94) and, after it, the encoder (R93).
The decoder is total on all 2^32 words and on all byte sequences; what is no command is rejected by name.
-/

namespace Sys2Proof

/-- Why a word or a byte sequence is no command. -/
inductive Reject where
  /-- RESERVED (30_encoding.md R94): a 1 in RSVD, bits 31:4. -/
  | reservedBits
  /-- RESERVED (30_encoding.md R94): CMD in 0x3..0xF with RSVD zero. -/
  | reservedOpcode
  /-- Fewer than the four bytes of a command word (30_encoding.md R91). -/
  | truncated
  deriving DecidableEq, Repr

/-- Field CMD, bits 3:0 of the command word (30_encoding.md R90). -/
def cmdField (d : Word) : BitVec 4 := d.extractLsb' 0 4

/-- Field RSVD, bits 31:4 of the command word (30_encoding.md R90). -/
def rsvdField (d : Word) : BitVec 28 := d.extractLsb' 4 28

/-- `decode` of 30_encoding.md R94: RESERVED is the `error` case. -/
def decode (d : Word) : Except Reject Instr :=
  if rsvdField d ≠ 0#28 then .error .reservedBits
  else if cmdField d = 0x0#4 then .ok .nop
  else if cmdField d = 0x1#4 then .ok .init
  else if cmdField d = 0x2#4 then .ok .hash
  else .error .reservedOpcode

/-- The word whose byte lane i is the i-th byte: lanes are little-endian (20_memory.md R63). -/
def wordOfLanes (b0 b1 b2 b3 : Byte) : Word := b3 ++ b2 ++ b1 ++ b0

/-- Byte lane i of a word, bits 8i+7 to 8i (20_memory.md R61, R63). -/
def lane (x : Word) (i : Nat) : Byte := x.extractLsb' (8 * i) 8

/-- The decoder on the byte lanes of the command word, lowest lane first: one word, and the bytes after it. -/
def decodeBytes : List Byte → Except Reject (Instr × List Byte)
  | b0 :: b1 :: b2 :: b3 :: rest =>
    match decode (wordOfLanes b0 b1 b2 b3) with
    | .ok i => .ok (i, rest)
    | .error r => .error r
  | _ => .error .truncated

/-- The full word of a command (30_encoding.md R93). -/
def encode : Instr → Word
  | .nop => 0x00000000#32
  | .init => 0x00000001#32
  | .hash => 0x00000002#32

/-- The byte lanes of a word, lowest lane first (20_memory.md R63). -/
def lanesOf (x : Word) : List Byte := [lane x 0, lane x 1, lane x 2, lane x 3]

/-- The byte lanes of a command's word. -/
def encodeBytes (i : Instr) : List Byte := lanesOf (encode i)

/-- The command word with the bits below `nbits` of `w` and zeros above. -/
def tableWord (nbits w : Nat) : Word := BitVec.ofNat 32 (w % 2 ^ nbits)

/-- The instruction the decoder reads from a row of spec/opcode_table.json whose bits are `w`. -/
def decodeTableWord (nbits w : Nat) : Option Instr :=
  match decodeBytes (lanesOf (tableWord nbits w)) with
  | .ok (i, _) => some i
  | .error _ => none

end Sys2Proof
end

