-- ==== Sys2Proof/Machine/Ops.lean ====
section
/-!
DEFINITION. The named operations over the message memory and the registers, and the core's one exception
mechanism: `reject` (60_exceptions.md R241) and its return, the W1C write (R253, 10_state.md R25).
-/

namespace Sys2Proof.Machine

/-- The byte at an index, none where it is UNWRITTEN (10_state.md R39). -/
def Memory.read : Memory → Nat → Option Byte
  | [], _ => none
  | (b, y) :: m, a => if b = a then some y else Memory.read m a

/-- A byte is written, keeping the indices strictly rising (10_state.md R39). -/
def Memory.write : Memory → Nat → Byte → Memory
  | [], a, x => [(a, x)]
  | (b, y) :: m, a, x =>
    if a < b then (a, x) :: (b, y) :: m
    else if a = b then (a, x) :: m
    else (b, y) :: Memory.write m a x

/-- The canonical form: indices strictly rising.
An unlisted index is UNWRITTEN and a listed one is not, so no entry equals what an unlisted one reads as. -/
abbrev Memory.wf (m : Memory) : Prop := m.Pairwise fun x y => x.1 < y.1

/-- The code of PHASE in SEQ bits 2:0 (10_state.md R33). -/
def Phase.code : Phase → BitVec 3
  | .idle => 0#3
  | .sched => 1#3
  | .loadwv => 2#3
  | .round => 3#3
  | .fold => 4#3
  | .format => 5#3
  | .unused6 => 6#3
  | .unused7 => 7#3

/-- The phases in which the sequencer has a micro-step, 1 to 5 (10_state.md R33). -/
def Phase.active : Phase → Bool
  | .idle => false
  | .sched => true
  | .loadwv => true
  | .round => true
  | .fold => true
  | .format => true
  | .unused6 => false
  | .unused7 => false

/-- The STATUS bit, and cause code, of an error (60_exceptions.md R247). -/
def errCode : ErrBit → Nat
  | .cmd => 8
  | .busy => 9
  | .len => 10
  | .wr => 11

/-- `reject E`: the sticky bit is set and nothing else changes (60_exceptions.md R241).
This is the core's only exception entry: it saves nothing and transfers no control (R240, R252). -/
def reject (s : State) : ErrBit → State
  | .cmd => { s with errCmd := true }
  | .busy => { s with errBusy := true }
  | .len => { s with errLen := true }
  | .wr => { s with errWr := true }

/-- The W1C write of STATUS with effective data `d` (10_state.md R25), the core's only error return
(60_exceptions.md R253): a 1 in bits 8 to 11 clears that error bit. -/
def clearErrors (s : State) (d : Word) : State :=
  { s with
    errCmd := s.errCmd && !d.getLsbD 8
    errBusy := s.errBusy && !d.getLsbD 9
    errLen := s.errLen && !d.getLsbD 10
    errWr := s.errWr && !d.getLsbD 11 }

/-- The check every command makes first (45_commands.md R210, 60_exceptions.md R242): while BUSY = 1 it is
rejected with ERR_BUSY. -/
def unlessBusy (s : State) (k : State → Result) : Result :=
  if s.busy then .next (reject s .busy) else k s

/-- The core's or the host's read of one message byte (20_memory.md R70, R65). -/
def memRead (s : State) (j : Nat) : Except Fault Byte :=
  if j < s.config.msgCap.toNat then
    match s.msg.read j with
    | some b => .ok b
    | none => .error .unwrittenMsgRead
  else .error .noSuchMsgByte

/-- Lane i of a message write at index j (20_memory.md R66): written where its strobe is set. -/
def writeLane (m : Memory) (j : Nat) (wdata : Word) (wstrb : Strobe) (i : Nat) : Memory :=
  if wstrb.getLsbD i then m.write (j + i) (lane wdata i) else m

/-- The four lanes of a message write (20_memory.md R66). -/
def writeLanes (m : Memory) (j : Nat) (wdata : Word) (wstrb : Strobe) : Memory :=
  writeLane (writeLane (writeLane (writeLane m j wdata wstrb 0) j wdata wstrb 1) j wdata wstrb 2) j wdata wstrb 3

/-- A message write by the host (20_memory.md R66). -/
def storeMsg (s : State) (j : Nat) (wdata : Word) (wstrb : Strobe) : State :=
  { s with msg := writeLanes s.msg j wdata wstrb }

end Sys2Proof.Machine
end

