-- ==== Sys2Proof/Machine/Padder.lean ====
section
/-!
DEFINITION. The message padder (41_padder.md): a combinational function of MSG, LEN and the byte index.
-/

namespace Sys2Proof.Machine

/-- The number of 64-byte blocks of the padded message, (LEN + 72) div 64 (41_padder.md R131). -/
def nblkOf (len : DWord) : Nat := (len.toNat + 72) / 64

/-- PLEN, the padded length in bytes (41_padder.md R131). -/
def plenOf (len : DWord) : Nat := 64 * nblkOf len

/-- BITLEN = 8 · LEN as an unsigned 64-bit value (41_padder.md R130).
It does not wrap for an accepted HASH; log entry 15 says what it does in states no run reaches. -/
def bitLenOf (len : DWord) : DWord := 8#64 * len

/-- PAD(j), byte j of the padded message (41_padder.md R132).
It is defined for j < PLEN only: outside it the model stops (log entry 9). -/
def pad (s : State) (j : Nat) : Except Fault Byte :=
  if j < s.len.toNat then memRead s j
  else if plenOf s.len ≤ j then .error .padOutOfRange
  else if j = s.len.toNat then .ok 0x80#8
  else if plenOf s.len - 8 ≤ j then
    .ok ((bitLenOf s.len >>> (8 * (plenOf s.len - 1 - j))).setWidth 8)
  else .ok 0x00#8

/-- PAD(j) ‖ PAD(j+1) ‖ PAD(j+2) ‖ PAD(j+3), the first byte in bits 31:24 (42_scheduler.md R153). -/
def padWord (s : State) (j : Nat) : Except Fault Word := do
  let b0 ← pad s j
  let b1 ← pad s (j + 1)
  let b2 ← pad s (j + 2)
  let b3 ← pad s (j + 3)
  return b0 ++ b1 ++ b2 ++ b3

end Sys2Proof.Machine
end

