-- ==== Sys2Proof/Machine/Commands.lean ====
section
/-!
DEFINITION. The meanings of the commands (45_commands.md R211 to R214), each a write of its word to CTRL: the check
of BUSY comes first (R210).
-/

namespace Sys2Proof.Machine

/-- What INIT and an accepted HASH do alike (45_commands.md R212, R213): H ← IV, BLK_CNT ← 0, HEX ← zeros, DONE ← 0. -/
def freshDigest (s : State) : State :=
  { s with h := ivRom, blkCnt := 0#32, hex := Vector.replicate 64 0x00#8, done := false }

/-- INIT_exec (45_commands.md R212). -/
def initExec (s : State) : State :=
  { freshDigest s with nblk := 0#32, phase := .idle, seqStep := 0#6 }

/-- HASH_accept (45_commands.md R213). -/
def hashAccept (s : State) : State :=
  { freshDigest s with nblk := BitVec.ofNat 32 (nblkOf s.len), phase := .sched, seqStep := 0#6, busy := true }

/-- NOP (45_commands.md R211). -/
def execNop (s : State) : Result := unlessBusy s fun s => .next s

/-- INIT (45_commands.md R212). -/
def execInit (s : State) : Result := unlessBusy s fun s => .next (initExec s)

/-- HASH (45_commands.md R213), with its length check (R214, 60_exceptions.md R244). -/
def execHash (s : State) : Result :=
  unlessBusy s fun s =>
    if s.config.msgCap.toNat < s.len.toNat then .next (reject s .len) else .next (hashAccept s)

/-- A RESERVED word (45_commands.md R210, 30_encoding.md R95): rejected with ERR_CMD, while BUSY = 1 with ERR_BUSY. -/
def execReserved (s : State) : Result := unlessBusy s fun s => .next (reject s .cmd)

end Sys2Proof.Machine
end

