-- ==== Sys2Proof/Machine/Flags.lean ====
section
/-!
DEFINITION. The status and sequencer words software reads, and the output signals (10_state.md R25, R28, R43).
The datapath has no carry, overflow or zero flag (R40).
-/

namespace Sys2Proof.Machine

/-- STATUS as the host reads it (10_state.md R25, 20_memory.md R65):
ERR_WR ‖ ERR_LEN ‖ ERR_BUSY ‖ ERR_CMD ‖ 000000 ‖ DONE ‖ BUSY, widened with zeros. -/
def statusWord (s : State) : Word :=
  (BitVec.ofBool s.errWr ++ BitVec.ofBool s.errLen ++ BitVec.ofBool s.errBusy ++ BitVec.ofBool s.errCmd ++
    0#6 ++ BitVec.ofBool s.done ++ BitVec.ofBool s.busy : BitVec 12).setWidth 32

/-- SEQ as the host reads it (10_state.md R28): STEP in bits 13:8, PHASE in bits 2:0, the rest zero. -/
def seqWord (s : State) : Word :=
  (s.seqStep ++ 0#5 ++ s.phase.code : BitVec 14).setWidth 32

/-- The output signal `busy` (10_state.md R43). -/
def busySignal (s : State) : Bool := s.busy

/-- The output signal `done` (10_state.md R43). -/
def doneSignal (s : State) : Bool := s.done

/-- The output signal `err`, the OR of the four error bits (10_state.md R43). -/
def errSignal (s : State) : Bool := s.errCmd || s.errBusy || s.errLen || s.errWr

end Sys2Proof.Machine
end

