-- ==== Sys2Proof/Machine/Operands.lean ====
section
/-!
DEFINITION. The operands of a bus transaction: the write mask and effective data (20_memory.md R64), the location
an offset names (R68), and the word a location reads as (R65).
-/

namespace Sys2Proof.Machine

/-- The write mask of a strobe (20_memory.md R64). -/
def wmask (wstrb : Strobe) : Word :=
  (if wstrb.getLsbD 3 then 0xFF000000#32 else 0#32) ||| (if wstrb.getLsbD 2 then 0x00FF0000#32 else 0#32) |||
    (if wstrb.getLsbD 1 then 0x0000FF00#32 else 0#32) ||| (if wstrb.getLsbD 0 then 0x000000FF#32 else 0#32)

/-- The effective data d = wdata ∧ wmask (20_memory.md R64). -/
def effective (wdata : Word) (wstrb : Strobe) : Word := wdata &&& wmask wstrb

/-- A storage register takes the enabled lanes (20_memory.md R64). -/
def merge (old wdata : Word) (wstrb : Strobe) : Word := (old &&& ~~~(wmask wstrb)) ||| effective wdata wstrb

/-- The first offset of the message memory (20_memory.md R68). -/
def msgBase : Nat := 0x00010000

/-- The offset of CTRL (10_state.md R24). -/
def ctrlOffset : Word := 0x00000004#32

/-- The registers below offset 0x040 (20_memory.md R68). -/
def controlLoc (o : Nat) : Loc :=
  if o = 0x000 then .id
  else if o = 0x004 then .ctrl
  else if o = 0x008 then .status
  else if o = 0x00C then .lenLo
  else if o = 0x010 then .lenHi
  else if o = 0x014 then .blkCnt
  else if o = 0x018 then .seq
  else if o = 0x01C then .nblk
  else if o = 0x020 then .cap
  else .reserved

/-- What lies at an aligned offset (20_memory.md R68; the ranges are those of R65). -/
def locAt (cap addr : Word) : Loc :=
  let o := addr.toNat
  if o < 0x040 then controlLoc o
  else if 0x040 ≤ o ∧ o ≤ 0x05C then .h (Fin.ofNat 8 ((o - 0x040) / 4))
  else if 0x060 ≤ o ∧ o ≤ 0x07C then .iv (Fin.ofNat 8 ((o - 0x060) / 4))
  else if 0x080 ≤ o ∧ o ≤ 0x09C then .wv (Fin.ofNat 8 ((o - 0x080) / 4))
  else if 0x100 ≤ o ∧ o ≤ 0x13C then .hex (Fin.ofNat 16 ((o - 0x100) / 4))
  else if 0x200 ≤ o ∧ o ≤ 0x2FC then .w (Fin.ofNat 64 ((o - 0x200) / 4))
  else if 0x300 ≤ o ∧ o ≤ 0x3FC then .k (Fin.ofNat 64 ((o - 0x300) / 4))
  else if msgBase ≤ o ∧ o < msgBase + cap.toNat then .msg (o - msgBase)
  else .reserved

/-- MSG[j+3] ‖ MSG[j+2] ‖ MSG[j+1] ‖ MSG[j] (20_memory.md R65). -/
def msgWord (s : State) (j : Nat) : Except Fault Word := do
  let b0 ← memRead s j
  let b1 ← memRead s (j + 1)
  let b2 ← memRead s (j + 2)
  let b3 ← memRead s (j + 3)
  return wordOfLanes b0 b1 b2 b3

/-- HEX[4n+3] ‖ HEX[4n+2] ‖ HEX[4n+1] ‖ HEX[4n] (20_memory.md R65). -/
def hexWord (s : State) (n : Fin 16) : Word :=
  wordOfLanes (s.hex[4 * n.val]'(by omega)) (s.hex[4 * n.val + 1]'(by omega))
    (s.hex[4 * n.val + 2]'(by omega)) (s.hex[4 * n.val + 3]'(by omega))

/-- The value of register ID (10_state.md R23). -/
def idValue : Word := 0x53484132#32

/-- The word a location reads as (20_memory.md R65). -/
def readLoc (s : State) : Loc → Except Fault Word
  | .id => .ok idValue
  | .ctrl => .ok 0#32
  | .status => .ok (statusWord s)
  | .lenLo => .ok (s.len.extractLsb' 0 32)
  | .lenHi => .ok (s.len.extractLsb' 32 32)
  | .blkCnt => .ok s.blkCnt
  | .seq => .ok (seqWord s)
  | .nblk => .ok s.nblk
  | .cap => .ok s.config.msgCap
  | .h k => .ok s.h[k]
  | .iv k => .ok ivRom[k]
  | .wv k => .ok s.wv[k]
  | .hex n => .ok (hexWord s n)
  | .w t => .ok s.w[t]
  | .k i => .ok kRom[i]
  | .msg j => msgWord s j
  | .reserved => .ok 0#32

end Sys2Proof.Machine
end

