-- ==== Sys2Proof/Machine/Bus.lean ====
section
/-!
DEFINITION. The host's transactions: `BusRead` (20_memory.md R62, R65) and `BusWrite` (R62, R64, R66).
-/

namespace Sys2Proof.Machine

/-- The bus response of this step (log entry 4). -/
def respond (s : State) (r : Response) : State := { s with response := some r }

/-- `Command(d)` (45_commands.md R210): the fetch of an instruction is the host's write of its word to CTRL. -/
def command (s : State) (d : Word) : Result :=
  match decode d with
  | .ok i => exec i s
  | .error _ => execReserved s

/-- A write that is rejected with ERR_WR while BUSY = 1 (20_memory.md R66, 60_exceptions.md R245). -/
def storeUnlessBusy (s : State) (s' : State) : Result :=
  if s.busy then .next (reject s .wr) else .next s'

/-- LEN[31:0] takes the enabled lanes (20_memory.md R66). -/
def setLenLo (s : State) (wdata : Word) (wstrb : Strobe) : State :=
  { s with len := s.len.extractLsb' 32 32 ++ merge (s.len.extractLsb' 0 32) wdata wstrb }

/-- LEN[63:32] takes the enabled lanes (20_memory.md R66). -/
def setLenHi (s : State) (wdata : Word) (wstrb : Strobe) : State :=
  { s with len := merge (s.len.extractLsb' 32 32) wdata wstrb ++ s.len.extractLsb' 0 32 }

/-- The effect of an aligned write with a strobe set (20_memory.md R66).
A read-only or reserved location ignores it (10_state.md R22, 20_memory.md R69). -/
def writeLoc (s : State) (wdata : Word) (wstrb : Strobe) : Loc → Result
  | .ctrl => command s (effective wdata wstrb)
  | .status => .next (clearErrors s (effective wdata wstrb))
  | .lenLo => storeUnlessBusy s (setLenLo s wdata wstrb)
  | .lenHi => storeUnlessBusy s (setLenHi s wdata wstrb)
  | .msg j => storeUnlessBusy s (storeMsg s j wdata wstrb)
  | .id => .next s
  | .blkCnt => .next s
  | .seq => .next s
  | .nblk => .next s
  | .cap => .next s
  | .h _ => .next s
  | .iv _ => .next s
  | .wv _ => .next s
  | .hex _ => .next s
  | .w _ => .next s
  | .k _ => .next s
  | .reserved => .next s

/-- `BusRead(addr)` (20_memory.md R62, R65): a read changes no state. -/
def busRead (s : State) (addr : Word) : Result :=
  if (Txn.read addr).aligned then
    match readLoc s (locAt s.config.msgCap addr) with
    | .ok v => .next (respond s (.read v false))
    | .error f => .fault f
  else .next (respond s (.read 0x00000000#32 true))

/-- `BusWrite(addr, wdata, wstrb)` (20_memory.md R62, R64, R66): a rejected write answers `err` = 0 too. -/
def busWrite (s : State) (addr wdata : Word) (wstrb : Strobe) : Result :=
  if (Txn.write addr wdata wstrb).aligned then
    if wstrb = 0#4 then .next (respond s (.write false))
    else writeLoc (respond s (.write false)) wdata wstrb (locAt s.config.msgCap addr)
  else .next (respond s (.write true))

/-- A transaction of the host. -/
def transact (s : State) : Txn → Result
  | .read addr => busRead s addr
  | .write addr wdata wstrb => busWrite s addr wdata wstrb

end Sys2Proof.Machine
end

