-- ==== Sys2Proof/Machine/Reset.lean ====
section
/-!
DEFINITION. The reset step (70_reset_and_hazards.md R270).
-/

namespace Sys2Proof.Machine

/-- Every element of state takes its value of 10_state.md R44; MSG and its UNWRITTEN marks stay as they are.
The model's own fields are no part of the hardware's reset and stay too. -/
def resetRegs (s : State) : State :=
  { State.reset with
    msg := s.msg, config := s.config, inputs := s.inputs, response := s.response, draws := s.draws }

/-- What a transaction presented while `rst_n` = 0 is answered with.
A read: 0 with `err` = 0 (70_reset_and_hazards.md R270; log entry 7).
A write: `err` is 1 only for a misaligned address (20_memory.md R61), so 0 for an aligned one; whether it is 1 for a
misaligned one while `rst_n` = 0 the rules leave open, a free value (log entry 6). -/
def resetResponse (draws : Nat) : Txn → Response
  | .read _ => .read 0x00000000#32 false
  | .write addr wdata wstrb => .write (!(Txn.write addr wdata wstrb).aligned && Config.resetWriteErr draws)

/-- A reset with the transaction presented while `rst_n` = 0, if any (70_reset_and_hazards.md R270): the transaction has
no effect and is answered. -/
def resetStep (s : State) : Option Txn → State
  | none => resetRegs s
  | some x => { resetRegs s with response := some (resetResponse s.draws x), draws := s.draws + 1 }

end Sys2Proof.Machine
end

