-- ==== Sys2Proof/Machine/Formatter.lean ====
section
/-!
DEFINITION. The digest formatter (44_formatter.md): the datapath of FORMAT.
-/

namespace Sys2Proof.Machine

/-- The ASCII code of a nibble's lowercase hexadecimal digit (44_formatter.md R200; log entry 14). -/
def hexChar (n : BitVec 4) : Byte :=
  if n.toNat < 10 then 0x30#8 + n.setWidth 8 else 0x61#8 + (n.setWidth 8 - 10#8)

/-- Nibble m of a word, the most significant first: bits 31−4m to 28−4m (44_formatter.md R201). -/
def nibble (x : Word) (m : Nat) : BitVec 4 := x.extractLsb' (28 - 4 * m) 4

/-- The 64 characters of a hash state: HEX[8k + m] is the digit of nibble m of H[k] (44_formatter.md R201). -/
def hexDigits (h : Vector Word 8) : Vector Byte 64 :=
  Vector.ofFn fun j => hexChar (nibble (h[j.val / 8]'(by omega)) (j.val % 8))

/-- FORMAT (44_formatter.md R201). -/
def formatStep (s : State) : State := { s with hex := hexDigits s.h }

end Sys2Proof.Machine
end

