-- ==== Sys2Proof/Machine/Scheduler.lean ====
section
/-!
DEFINITION. The block scheduler (42_scheduler.md): the datapath of the micro-steps LOADW and EXPANDW.
-/

namespace Sys2Proof.Machine

/-- W[t] ← x. -/
def storeW (s : State) (t : BitVec 6) (x : Word) : State :=
  { s with w := s.w.set t.toNat x t.isLt }

/-- W[t]. -/
def wAt (s : State) (t : BitVec 6) : Word := s.w[t.toNat]'t.isLt

/-- The index in the padded message of the first byte of schedule word t of block BLK_CNT
(42_scheduler.md R152, R153). -/
def wordIndex (s : State) (t : BitVec 6) : Nat := 64 * s.blkCnt.toNat + 4 * t.toNat

/-- LOADW(t), for t < 16 (42_scheduler.md R153). -/
def loadW (s : State) (t : BitVec 6) : Except Fault State :=
  match padWord s (wordIndex s t) with
  | .ok x => .ok (storeW s t x)
  | .error f => .error f

/-- The sum of 42_scheduler.md R154 from its four sources. -/
def expandSum (w2 w7 w15 w16 : Word) : Word :=
  add32 (add32 (add32 (sigma1 w2) w7) (sigma0 w15)) w16

/-- EXPANDW(t), for 16 ≤ t (42_scheduler.md R154). -/
def expandW (s : State) (t : BitVec 6) : State :=
  storeW s t (expandSum (wAt s (t - 2)) (wAt s (t - 7)) (wAt s (t - 15)) (wAt s (t - 16)))

end Sys2Proof.Machine
end

