-- ==== Sys2Proof/Machine/Sequencer.lean ====
section
/-!
DEFINITION. The sequencer (45_commands.md R220 to R225): the micro-step enabled by PHASE and STEP, the datapath part
and the transition in one atomic step.
The two parts are a parallel assignment (00_scope.md R9): no transition reads what its datapath part writes.
-/

namespace Sys2Proof.Machine

/-- SchedNext (45_commands.md R221). -/
def schedNext (s : State) : State :=
  if s.seqStep < 63#6 then { s with seqStep := s.seqStep + 1#6 } else { s with phase := .loadwv, seqStep := 0#6 }

/-- LoadwvNext (45_commands.md R222). -/
def loadwvNext (s : State) : State := { s with phase := .round, seqStep := 0#6 }

/-- RoundNext (45_commands.md R223). -/
def roundNext (s : State) : State :=
  if s.seqStep < 63#6 then { s with seqStep := s.seqStep + 1#6 } else { s with phase := .fold, seqStep := 0#6 }

/-- FoldNext (45_commands.md R224): the test is on BLK_CNT as before the step (90_conflicts.md C4). -/
def foldNext (s : State) : State :=
  { s with
    blkCnt := s.blkCnt + 1#32
    phase := if s.blkCnt + 1#32 = s.nblk then .format else .sched
    seqStep := 0#6 }

/-- FormatNext (45_commands.md R225). -/
def formatNext (s : State) : State := { s with phase := .idle, seqStep := 0#6, busy := false, done := true }

/-- The SCHED micro-step: LOADW(STEP) for STEP < 16, EXPANDW(STEP) otherwise, then SchedNext (45_commands.md R220). -/
def schedMicro (s : State) : Result :=
  if s.seqStep < 16#6 then
    match loadW s s.seqStep with
    | .ok s' => .next (schedNext s')
    | .error f => .fault f
  else .next (schedNext (expandW s s.seqStep))

/-- MicroStep (45_commands.md R220), for BUSY = 1.
In PHASE 0, 6 and 7 the sequencer is stuck (93_implementation_defined.md U3, log entry 8). -/
def busyMicro (s : State) : Result :=
  match s.phase with
  | .idle => .fault .sequencerStuck
  | .sched => schedMicro s
  | .loadwv => .next (loadwvNext (loadWv s))
  | .round => .next (roundNext (roundStep s s.seqStep))
  | .fold => .next (foldNext (foldStep s))
  | .format => .next (formatNext (formatStep s))
  | .unused6 => .fault .sequencerStuck
  | .unused7 => .fault .sequencerStuck

/-- A turn of the sequencer: the micro-step if BUSY = 1; while BUSY = 0 it has no step, and its turn passes with the
state as it was (45_commands.md R220, 60_exceptions.md R259, log entry 3). -/
def microStep (s : State) : Result := if s.busy then busyMicro s else .next s

end Sys2Proof.Machine
end

