-- ==== Sys2Proof/Machine/Turns.lean ====
section
/-!
DEFINITION. Whose turn it is (20_memory.md R60): one micro-step, one transaction or one reset, and the placing of a
command as the next turn.
-/

namespace Sys2Proof.Machine

/-- One turn, the inputs already moved past it. -/
def takeTurn (s : State) : Input → Result
  | .sequencer => microStep s
  | .bus t => transact s t
  | .reset presented => .next (resetStep s presented)

/-- The state as a turn begins: the inputs moved past it, and no transaction answered yet (log entry 4). -/
def beginTurn (s : State) (rest : List Input) : State := { s with inputs := rest, response := none }

/-- The next step: the first input's turn, or, with no input left, the sequencer's (log entry 2). -/
def nextTurn (s : State) : Result :=
  match s.inputs with
  | [] => microStep (beginTurn s [])
  | e :: rest => takeTurn (beginTurn s rest) e

/-- The host's write of a command word to CTRL with all strobes (30_encoding.md R98). -/
def commandInput (d : Word) : Input := .bus (.write ctrlOffset d 0b1111#4)

/-- The state with a command word as its next input (log entry 10). -/
def placeCommand (s : State) (d : Word) : State := { s with inputs := commandInput d :: s.inputs }

end Sys2Proof.Machine
end

