-- ==== Sys2Proof/Machine/Step.lean ====
section
/-! DEFINITION. One step of the machine, and the placing of an instruction where the next step takes it. -/

namespace Sys2Proof.Machine

/-- One atomic step (00_scope.md R11). -/
def step (s : State) : Host.Outcome State Fault Refusal := nextTurn s

/-- The command whose bits are `w`, written to CTRL by the next input (log entry 10). -/
def State.withFetchWord (s : State) (nbits w : Nat) : State := placeCommand s (tableWord nbits w)

end Sys2Proof.Machine
end

