-- ==== Sys2Proof/Machine/HostNotation.lean ====
section
/-!
DEFINITION. The host's notation (30_encoding.md R97, R98): each form as the inputs it stands for.
POLL and WAIT are loops of reads whose number is not fixed: here the number is an argument.
-/

namespace Sys2Proof.Machine

/-- `WR off, data, strb` (30_encoding.md R97). -/
def wrStrobe (off data : Word) (strb : Strobe) : Input := .bus (.write off data strb)

/-- `WR off, data`: all strobes (30_encoding.md R97). -/
def wr (off data : Word) : Input := wrStrobe off data 0b1111#4

/-- `RD off` (30_encoding.md R97). -/
def rd (off : Word) : Input := .bus (.read off)

/-- `POLL off`, with `n` reads (30_encoding.md R97). -/
def poll (off : Word) (n : Nat) : List Input := List.replicate n (rd off)

/-- `WAIT`, with `n` reads of STATUS (30_encoding.md R98). -/
def waitIdle (n : Nat) : List Input := poll 0x008#32 n

/-- `NOP`, `INIT` or `HASH` (30_encoding.md R98). -/
def issue (i : Instr) : Input := wr ctrlOffset (encode i)

/-- `CLRERR` (30_encoding.md R98). -/
def clrErr : Input := wr 0x008#32 0x00000F00#32

/-- `SETLEN n` (30_encoding.md R98). -/
def setLen (n : DWord) : List Input := [wr 0x00C#32 (n.extractLsb' 0 32), wr 0x010#32 (n.extractLsb' 32 32)]

/-- `LOADMSG`, from message index `j` on (30_encoding.md R98): a full word for every four bytes, and for the last one to
three bytes the strobes of the lanes they fill, the others written as 0. -/
def loadMsgFrom (j : Nat) : List Byte → List Input
  | [] => []
  | [b0] => [wrStrobe (BitVec.ofNat 32 (msgBase + j)) (wordOfLanes b0 0#8 0#8 0#8) 0b0001#4]
  | [b0, b1] => [wrStrobe (BitVec.ofNat 32 (msgBase + j)) (wordOfLanes b0 b1 0#8 0#8) 0b0011#4]
  | [b0, b1, b2] => [wrStrobe (BitVec.ofNat 32 (msgBase + j)) (wordOfLanes b0 b1 b2 0#8) 0b0111#4]
  | b0 :: b1 :: b2 :: b3 :: rest =>
    wr (BitVec.ofNat 32 (msgBase + j)) (wordOfLanes b0 b1 b2 b3) :: loadMsgFrom (j + 4) rest

/-- `LOADMSG b0 … b(n−1)` (30_encoding.md R98). -/
def loadMsg (m : List Byte) : List Input := loadMsgFrom 0 m

/-- The eight reads of H that end `DIGEST` (30_encoding.md R98). -/
def readDigest : List Input :=
  [rd 0x040#32, rd 0x044#32, rd 0x048#32, rd 0x04C#32, rd 0x050#32, rd 0x054#32, rd 0x058#32, rd 0x05C#32]

/-- `DIGEST`, with `n` reads in its WAIT (30_encoding.md R98). -/
def digestInputs (n : Nat) : List Input := issue .hash :: (waitIdle n ++ readDigest)

end Sys2Proof.Machine
end

