-- ==== Sys2Proof/Safety.lean ====
section
/-!
DEFINITION. The terms the claims use: the document's algorithm on byte sequences (as 41_padder.md, 42_scheduler.md,
43_compressor.md and 44_formatter.md quote its §4), what the constants are by definition, the frames, the invariants of the machine, and which events a
step consists of.
-/

namespace Sys2Proof.Document

open Sys2Proof.Machine

/-- The number of zero bytes of the padding, (55 − LEN) mod 64 (41_padder.md R131). -/
def zeroCount (n : Nat) : Nat := (119 - n % 64) % 64

/-- Eight bytes, the most significant first (§4.1 as 41_padder.md quotes it). -/
def bigEndian64 (x : DWord) : List Byte := (List.range 8).map fun i => x.extractLsb' (56 - 8 * i) 8

/-- `pad(bytes)` of §4.1 (41_padder.md, source text): one 0x80 byte, zeros up to 448 mod 512 bits, the bit length. -/
def padMessage (m : List Byte) : List Byte :=
  m ++ 0x80#8 :: (List.replicate (zeroCount m.length) 0x00#8 ++ bigEndian64 (BitVec.ofNat 64 (8 * m.length)))

/-- Block b, a 64-byte window of the padded message (42_scheduler.md R152). -/
def block (bytes : List Byte) (b : Nat) : List Byte := (bytes.drop (64 * b)).take 64

/-- The 4-byte group at index i, most significant byte first (§4.2 as 42_scheduler.md R153 quotes it). -/
def bigEndianWord (bytes : List Byte) (i : Nat) : Word :=
  bytes.getD i 0#8 ++ bytes.getD (i + 1) 0#8 ++ bytes.getD (i + 2) 0#8 ++ bytes.getD (i + 3) 0#8

/-- The schedule word after those of `ws` (§4.2 as 42_scheduler.md R154 states it). -/
def nextWord (ws : List Word) : Word :=
  sigma1 (ws.getD (ws.length - 2) 0#32) + ws.getD (ws.length - 7) 0#32 +
    sigma0 (ws.getD (ws.length - 15) 0#32) + ws.getD (ws.length - 16) 0#32

/-- The first n words of a block's schedule. -/
def schedulePrefix (blk : List Byte) : Nat → List Word
  | 0 => []
  | n + 1 =>
    schedulePrefix blk n ++
      [if n < 16 then bigEndianWord blk (4 * n) else nextWord (schedulePrefix blk n)]

/-- `expand(block)` of §4.2 (42_scheduler.md introduction). -/
def expand (blk : List Byte) : List Word := schedulePrefix blk 64

/-- The working variables a..h of §4.3. -/
structure Vars where
  a : Word
  b : Word
  c : Word
  d : Word
  e : Word
  f : Word
  g : Word
  h : Word
  deriving DecidableEq, Repr

/-- "Initialize eight working variables a..h from the current state" (§4.3 as 43_compressor.md R180 quotes it). -/
def Vars.ofState (v : Vector Word 8) : Vars := ⟨v[0], v[1], v[2], v[3], v[4], v[5], v[6], v[7]⟩

/-- One round of §4.3 (43_compressor.md R177, R181). -/
def oneRound (x : Vars) (k w : Word) : Vars :=
  let T1 := x.h + bigSigma1 x.e + ch x.e x.f x.g + k + w
  let T2 := bigSigma0 x.a + maj x.a x.b x.c
  { a := T1 + T2, b := x.a, c := x.b, d := x.c, e := x.d + T1, f := x.e, g := x.f, h := x.g }

/-- The first n rounds of a block (43_compressor.md R183). -/
def rounds (x : Vars) (ws : List Word) : Nat → Vars
  | 0 => x
  | n + 1 => oneRound (rounds x ws n) (kRom.toList.getD n 0#32) (ws.getD n 0#32)

/-- "add a..h back into the corresponding state words" (§4.3 as 43_compressor.md R182 quotes it). -/
def addBack (v : Vector Word 8) (x : Vars) : Vector Word 8 :=
  #v[v[0] + x.a, v[1] + x.b, v[2] + x.c, v[3] + x.d, v[4] + x.e, v[5] + x.f, v[6] + x.g, v[7] + x.h]

/-- `compress(state, schedule, K)` of §4.3 (43_compressor.md R183). -/
def compress (v : Vector Word 8) (ws : List Word) : Vector Word 8 := addBack v (rounds (Vars.ofState v) ws 64)

/-- The hash state after the first n blocks, starting from IV (43_compressor.md R170, 45_commands.md R230). -/
def hashBlocks (bytes : List Byte) : Nat → Vector Word 8
  | 0 => ivRom
  | n + 1 => compress (hashBlocks bytes n) (expand (block bytes n))

/-- The binary digest of a message: the left fold of 45_commands.md R230. -/
def sha256 (m : List Byte) : Vector Word 8 := hashBlocks (padMessage m) ((padMessage m).length / 64)

/-- The primes below 312, in rising order, by trial division: there are 64 of them. -/
def firstPrimes : List Nat :=
  (List.range 312).filter fun n => 2 ≤ n && (List.range n).all fun d => d < 2 || n % d != 0

/-- x holds the first 32 bits of the fractional part of the k-th root of p, ⌊p^(1/k) · 2^32⌋ mod 2^32
(43_compressor.md R171, R172). -/
def IsRootFraction (k p : Nat) (x : Word) : Prop :=
  ∃ n, n ^ k ≤ p * 2 ^ (32 * k) ∧ p * 2 ^ (32 * k) < (n + 1) ^ k ∧ x.toNat = n % 2 ^ 32

/-- `format(state)` of §4.4 (44_formatter.md introduction): words in state order, most significant nibble first. -/
def format (v : Vector Word 8) : List Byte :=
  v.toList.flatMap fun x => (List.range 8).map fun m => hexChar (x.extractLsb' (4 * (7 - m)) 4)

/-- `digest(M)` of §6 (45_commands.md R230). -/
def digest (m : List Byte) : List Byte := format (sha256 m)

end Sys2Proof.Document

namespace Sys2Proof.Safety

open Sys2Proof.Machine Sys2Proof.Document

/-- The message a HASH digests, MSG[0..LEN−1] (20_memory.md R76); `Written` says that no byte of it is UNWRITTEN. -/
def message (s : State) : List Byte := (List.range s.len.toNat).map fun j => (s.msg.read j).getD 0x00#8

/-- Every message byte below LEN has been written. -/
def Written (s : State) : Prop := ∀ j < s.len.toNat, (s.msg.read j).isSome

/-- Everything the sequencer and the results consist of, and the message they are computed from, is the same. -/
structure SameComputation (s t : State) : Prop where
  h : t.h = s.h
  wv : t.wv = s.wv
  w : t.w = s.w
  hex : t.hex = s.hex
  msg : t.msg = s.msg
  len : t.len = s.len
  nblk : t.nblk = s.nblk
  blkCnt : t.blkCnt = s.blkCnt
  phase : t.phase = s.phase
  seqStep : t.seqStep = s.seqStep
  busy : t.busy = s.busy
  done : t.done = s.done

/-- The four error bits are the same. -/
structure SameErrors (s t : State) : Prop where
  errCmd : t.errCmd = s.errCmd
  errBusy : t.errBusy = s.errBusy
  errLen : t.errLen = s.errLen
  errWr : t.errWr = s.errWr

/-- The model's own fields are the same. -/
structure SameModelFields (s t : State) : Prop where
  config : t.config = s.config
  inputs : t.inputs = s.inputs
  response : t.response = s.response
  draws : t.draws = s.draws

/-- k steps of the machine, stopping at the first that does not complete. -/
def run (k : Nat) (s : State) : Result := core.run k s

/-- Two steps with the same outcome, up to the error bits and the bus response: both complete with the same
computation, or both stop with the same reason. -/
def SameOutcome : Result → Result → Prop
  | .next t, .next t' => SameComputation t t' ∧ t'.config = t.config ∧ t'.inputs = t.inputs
  | .fault f, .fault f' => f = f'
  | .refused r, .refused r' => r = r'
  | _, _ => False

/-- A host read at `addr` answers `v` with `err` = 0 and changes nothing else (20_memory.md R65). -/
def ReadsAs (s : State) (addr v : Word) : Prop :=
  transact s (.read addr) = .next { s with response := some (.read v false) }

/-- The sequencer has the next turn: its input comes first, or no input is left (log entry 2). -/
def SequencerTurn (s : State) : Prop := s.inputs = [] ∨ s.inputs.head? = some .sequencer

/-- The next turn is a reset. -/
def ResetTurn (s : State) : Prop := ∃ p, s.inputs.head? = some (.reset p)

/-- The next turn is a host write that 20_memory.md R66 applies to: aligned, with a strobe set. -/
def WriteTurn (s : State) (addr wdata : Word) (wstrb : Strobe) : Prop :=
  s.inputs.head? = some (.bus (.write addr wdata wstrb)) ∧ addr.toNat % 4 = 0 ∧ wstrb ≠ 0#4

/-- The next turn is a write of CTRL that encodes the command i. -/
def CommandTurn (s : State) (i : Instr) : Prop :=
  ∃ wdata wstrb, WriteTurn s 0x00000004#32 wdata wstrb ∧ effective wdata wstrb = encode i

/-- The next turn is a command that is accepted and writes the results: INIT, or HASH with LEN ≤ MSG_CAP, while
BUSY = 0 (45_commands.md R210, R212, R213). -/
def AcceptedTurn (s : State) : Prop :=
  s.busy = false ∧ (CommandTurn s .init ∨ (CommandTurn s .hash ∧ s.len.toNat ≤ s.config.msgCap.toNat))

/-- An offset in the message memory's window (20_memory.md R68). -/
def InMsgWindow (s : State) (addr : Word) : Prop :=
  0x00010000 ≤ addr.toNat ∧ addr.toNat < 0x00010000 + s.config.msgCap.toNat

/-- The offset of a register that ignores writes, or a reserved one (10_state.md R22, 20_memory.md R68, R69). -/
def IgnoresWrites (s : State) (addr : Word) : Prop :=
  addr.toNat ≠ 0x004 ∧ addr.toNat ≠ 0x008 ∧ addr.toNat ≠ 0x00C ∧ addr.toNat ≠ 0x010 ∧ ¬ InMsgWindow s addr

/-- An aligned offset of a reserved range of 20_memory.md R68. -/
def Reserved (s : State) (addr : Word) : Prop :=
  (0x024 ≤ addr.toNat ∧ addr.toNat ≤ 0x03F) ∨ (0x0A0 ≤ addr.toNat ∧ addr.toNat ≤ 0x0FF) ∨
    (0x140 ≤ addr.toNat ∧ addr.toNat ≤ 0x1FF) ∨ (0x400 ≤ addr.toNat ∧ addr.toNat ≤ 0xFFFF) ∨
    0x00010000 + s.config.msgCap.toNat ≤ addr.toNat

/-- What holds of the registers in every state a run reaches. -/
structure Inv (s : State) : Prop where
  /-- 00_scope.md R7. -/
  configLegal : s.config.Legal
  /-- The message memory keeps its canonical form. -/
  msgWf : s.msg.wf
  /-- Only indices of 10_state.md R39 are written. -/
  msgInCap : ∀ c ∈ s.msg, c.1 < s.config.msgCap.toNat
  /-- BUSY = 1 exactly when PHASE ∈ 1..5 (10_state.md R33). -/
  busyActive : s.busy = s.phase.active
  /-- PHASE 6 and 7 are never reached (10_state.md R33). -/
  phaseUsed : s.phase ≠ .unused6 ∧ s.phase ≠ .unused7
  /-- STEP is 0 in the phases without steps (10_state.md R28). -/
  stepZero : s.phase ≠ .sched → s.phase ≠ .round → s.seqStep = 0#6
  /-- DONE is cleared when BUSY is set and set when BUSY is cleared (10_state.md R40). -/
  notBoth : s.busy = true → s.done = false
  /-- A running HASH passed the length check (45_commands.md R214) and LEN cannot change (20_memory.md R76). -/
  lenFits : s.busy = true → s.len.toNat ≤ s.config.msgCap.toNat
  /-- NBLK is the block count of the running HASH (10_state.md R29). -/
  nblkRunning : s.busy = true → s.nblk.toNat = nblkOf s.len
  /-- The bound of 10_state.md R27. -/
  nblkBound : s.nblk.toNat ≤ (s.config.msgCap.toNat + 72) / 64
  /-- BLK_CNT is the index of the block being processed (10_state.md R27). -/
  blkRunning : s.phase = .sched ∨ s.phase = .loadwv ∨ s.phase = .round ∨ s.phase = .fold →
    s.blkCnt.toNat < s.nblk.toNat
  /-- All blocks are folded, or none was to be (10_state.md R27, 45_commands.md R224). -/
  blkEnd : s.phase = .idle ∨ s.phase = .format → s.blkCnt = s.nblk
  /-- HEX is the formatted H when DONE = 1 and zeros otherwise (10_state.md R38, R40, 44_formatter.md R201). -/
  hexMeaning : s.hex = if s.done then hexDigits s.h else Vector.replicate 64 0x00#8

/-- How far a running HASH has come, in the terms of the document's algorithm (45_commands.md R230, 42_scheduler.md R155,
43_compressor.md R183): what H, W and wv hold in each phase. -/
def HashProgress (s : State) : Prop :=
  match s.phase with
  | .idle => True
  | .sched =>
    s.h = hashBlocks (padMessage (message s)) s.blkCnt.toNat ∧
      s.w.toList.take s.seqStep.toNat =
        schedulePrefix (block (padMessage (message s)) s.blkCnt.toNat) s.seqStep.toNat
  | .loadwv =>
    s.h = hashBlocks (padMessage (message s)) s.blkCnt.toNat ∧
      s.w.toList = expand (block (padMessage (message s)) s.blkCnt.toNat)
  | .round =>
    s.h = hashBlocks (padMessage (message s)) s.blkCnt.toNat ∧
      s.w.toList = expand (block (padMessage (message s)) s.blkCnt.toNat) ∧
      Vars.ofState s.wv = rounds (Vars.ofState s.h) s.w.toList s.seqStep.toNat
  | .fold =>
    s.h = hashBlocks (padMessage (message s)) s.blkCnt.toNat ∧
      s.w.toList = expand (block (padMessage (message s)) s.blkCnt.toNat) ∧
      Vars.ofState s.wv = rounds (Vars.ofState s.h) s.w.toList 64
  | .format =>
    s.h = hashBlocks (padMessage (message s)) s.blkCnt.toNat ∧
      s.w.toList = expand (block (padMessage (message s)) (s.blkCnt.toNat - 1)) ∧
      Vars.ofState s.wv =
        rounds (Vars.ofState (hashBlocks (padMessage (message s)) (s.blkCnt.toNat - 1))) s.w.toList 64
  | .unused6 => True
  | .unused7 => True

/-- The micro-steps a running HASH still takes: 130 a block, 1 for FORMAT (45_commands.md R226). -/
def remaining (s : State) : Nat :=
  match s.phase with
  | .idle => 0
  | .sched => 130 * (s.nblk.toNat - s.blkCnt.toNat) + 1 - s.seqStep.toNat
  | .loadwv => 130 * (s.nblk.toNat - s.blkCnt.toNat) + 1 - 64
  | .round => 130 * (s.nblk.toNat - s.blkCnt.toNat) + 1 - 65 - s.seqStep.toNat
  | .fold => 130 * (s.nblk.toNat - s.blkCnt.toNat) + 1 - 129
  | .format => 1
  | .unused6 => 0
  | .unused7 => 0

/-- A HASH has ended with the digest of `m`: the end state of 45_commands.md R230. -/
structure Delivered (t : State) (m : List Byte) : Prop where
  h : t.h = sha256 m
  hex : t.hex.toList = digest m
  w : t.w.toList = expand (block (padMessage m) ((m.length + 72) / 64 - 1))
  wv : Vars.ofState t.wv =
    rounds (Vars.ofState (hashBlocks (padMessage m) ((m.length + 72) / 64 - 1))) t.w.toList 64
  busy : t.busy = false
  done : t.done = true
  phase : t.phase = .idle
  seqStep : t.seqStep = 0#6
  blkCnt : t.blkCnt.toNat = (m.length + 72) / 64
  nblk : t.nblk.toNat = (m.length + 72) / 64

/-- The inputs that load a message, set its length and start a HASH (70_reset_and_hazards.md R273, steps 1 to 3). -/
def hashInputs (m : List Byte) : List Input :=
  loadMsg m ++ setLen (BitVec.ofNat 64 m.length) ++ [issue .hash]

end Sys2Proof.Safety
end

