-- ==== Sys2Proof/Certificates/Slice0/Obligations.lean ====
section
/-! DEFINITION. The statements for the provers. -/

open Sys2Proof Sys2Proof.Machine Sys2Proof.Document Sys2Proof.Safety

/-! ## Encoding and dispatch -/

/-- Words written out from the table of 30_encoding.md R93, and reserved ones from V-CMD of 95_test_vectors.md. -/
def Obligations.CommandWordsDecode : Prop :=
  decode 0x00000000#32 = .ok .nop ∧ decode 0x00000001#32 = .ok .init ∧ decode 0x00000002#32 = .ok .hash ∧
    decode 0x00000003#32 = .error .reservedOpcode ∧ decode 0x0000000F#32 = .error .reservedOpcode ∧
    decode 0x00000010#32 = .error .reservedBits ∧ decode 0x80000002#32 = .error .reservedBits ∧
    decode 0x00000102#32 = .error .reservedBits

/-- 30_encoding.md R94: each command is decoded from one word only, and every other word is RESERVED. -/
def Obligations.DecoderIsTotalOverWords : Prop :=
  ∀ d : Word,
    (decode d = .ok .nop ↔ d = 0x00000000#32) ∧ (decode d = .ok .init ↔ d = 0x00000001#32) ∧
    (decode d = .ok .hash ↔ d = 0x00000002#32) ∧
    ((∃ r, decode d = .error r) ↔ d.extractLsb' 4 28 ≠ 0#28 ∨ 3 ≤ (d.extractLsb' 0 4).toNat)

/-- Decoding the byte lanes of a command's word gives the command back, with the bytes after it, and so does the
table's numbering of its bits (30_encoding.md R91, R93). -/
def Obligations.EncodedCommandsDecodeBack : Prop :=
  ∀ (i : Instr) (rest : List Byte), i.wf = true →
    decode (encode i) = .ok i ∧ decodeBytes (encodeBytes i ++ rest) = .ok (i, rest) ∧
    decodeTableWord 32 (encode i).toNat = some i

/-- A step is the turn of the first input, with the inputs moved past it and no transaction answered yet; with no input
left the sequencer has the turn (20_memory.md R60; the list of inputs is the model's, log entries 2 and 4). -/
def Obligations.StepTakesTheFirstInput : Prop :=
  ∀ s : State,
    (s.inputs = [] → step s = microStep { s with response := none }) ∧
    (∀ rest, s.inputs = .sequencer :: rest → step s = microStep { s with inputs := rest, response := none }) ∧
    (∀ t rest, s.inputs = .bus t :: rest → step s = transact { s with inputs := rest, response := none } t) ∧
    (∀ p rest, s.inputs = .reset p :: rest →
      step s = .next (resetStep { s with inputs := rest, response := none } p))

/-- When the first input is a write of CTRL whose effective data decodes to a command, the step is that command's
meaning, around which the step moves the inputs on and answers `err` = 0 (30_encoding.md R90, 45_commands.md R210;
log entries 2, 4 and 10). -/
def Obligations.StepRunsTheDecodedCommand : Prop :=
  ∀ (s : State) (wdata : Word) (wstrb : Strobe) (rest : List Input) (i : Instr),
    s.inputs = .bus (.write 0x00000004#32 wdata wstrb) :: rest → wstrb ≠ 0#4 →
    decode (effective wdata wstrb) = .ok i →
    step s = exec i { s with inputs := rest, response := some (.write false) }

/-- A command placed as the next input is what the very next step runs (log entry 10). -/
def Obligations.PlacedCommandRunsNext : Prop :=
  ∀ (s : State) (i : Instr),
    step (s.withFetchWord 32 (encode i).toNat) = exec i { s with response := some (.write false) }

/-! ## The commands -/

/-- 45_commands.md R211: no state change while BUSY = 0, ERR_BUSY while BUSY = 1, and a write of CTRL with no strobe set
is no NOP: it is never rejected. -/
def Obligations.NopChangesNothing : Prop :=
  decode 0x00000000#32 = .ok .nop ∧
  ∀ s : State,
    (s.busy = false → exec .nop s = .next s) ∧
    (s.busy = true → exec .nop s = .next { s with errBusy := true }) ∧
    (∀ wdata, transact s (.write 0x00000004#32 wdata 0#4) = .next { s with response := some (.write false) })

/-- 45_commands.md R212: the new values, everything else unchanged, ERR_BUSY while BUSY = 1, and INIT twice is INIT once. -/
def Obligations.InitLoadsTheInitialValue : Prop :=
  decode 0x00000001#32 = .ok .init ∧
  ∀ s : State,
    (s.busy = false → exec .init s = .next
      { s with
        h := ivRom, blkCnt := 0#32, nblk := 0#32, hex := Vector.replicate 64 0x00#8,
        phase := .idle, seqStep := 0#6, done := false }) ∧
    (s.busy = true → exec .init s = .next { s with errBusy := true }) ∧
    (∀ t, s.busy = false → exec .init s = .next t → exec .init t = .next t)

/-- The acceptance of HASH (45_commands.md R213): the new values, and everything else unchanged. -/
def Obligations.HashIsAccepted : Prop :=
  ∀ s : State, s.busy = false → s.len.toNat ≤ s.config.msgCap.toNat →
    exec .hash s = .next
      { s with
        h := ivRom, nblk := BitVec.ofNat 32 ((s.len.toNat + 72) / 64), blkCnt := 0#32,
        hex := Vector.replicate 64 0x00#8, phase := .sched, seqStep := 0#6, done := false, busy := true }

/-- 45_commands.md R214, 60_exceptions.md R244: the full 64-bit LEN is compared, and a rejected HASH changes its error
bit only. -/
def Obligations.HashLengthCheck : Prop :=
  ∀ s : State, s.busy = false →
    (s.config.msgCap.toNat < s.len.toNat → exec .hash s = .next { s with errLen := true }) ∧
    ((∃ t, exec .hash s = .next t ∧ t.busy = true) ↔ s.len.toNat ≤ s.config.msgCap.toNat)

/-- 60_exceptions.md R242: whatever the command word, and for the meaning of every command. -/
def Obligations.CommandWhileBusyIsLost : Prop :=
  ∀ (s : State), s.busy = true →
    (∀ i, exec i s = .next { s with errBusy := true }) ∧
    (∀ (wdata : Word) (wstrb : Strobe), wstrb ≠ 0#4 →
      transact s (.write 0x00000004#32 wdata wstrb) =
        .next { s with errBusy := true, response := some (.write false) })

/-- 60_exceptions.md R243, 30_encoding.md R95: a reserved word sets ERR_CMD, or ERR_BUSY while BUSY = 1, and does
nothing else. -/
def Obligations.ReservedWordIsRejected : Prop :=
  ∀ (s : State) (wdata : Word) (wstrb : Strobe), wstrb ≠ 0#4 →
    ((effective wdata wstrb).extractLsb' 4 28 ≠ 0#28 ∨ 3 ≤ ((effective wdata wstrb).extractLsb' 0 4).toNat) →
    (s.busy = false → transact s (.write 0x00000004#32 wdata wstrb) =
      .next { s with errCmd := true, response := some (.write false) }) ∧
    (s.busy = true → transact s (.write 0x00000004#32 wdata wstrb) =
      .next { s with errBusy := true, response := some (.write false) })

/-- The frame of NOP, INIT and HASH: what none of them changes, and which command may change the rest
(45_commands.md R211 to R213). -/
def Obligations.CommandFrame : Prop :=
  ∀ (i : Instr) (s t : State), exec i s = .next t →
    t.wv = s.wv ∧ t.w = s.w ∧ t.len = s.len ∧ (∀ a, t.msg.read a = s.msg.read a) ∧
    t.errCmd = s.errCmd ∧ t.errWr = s.errWr ∧ SameModelFields s t ∧
    (i ≠ .hash → t.errLen = s.errLen ∧ t.busy = s.busy) ∧
    (i = .nop → t.h = s.h ∧ t.hex = s.hex ∧ t.nblk = s.nblk ∧ t.blkCnt = s.blkCnt ∧ t.phase = s.phase ∧
      t.seqStep = s.seqStep ∧ t.done = s.done) ∧
    (s.busy = false → t.errBusy = s.errBusy) ∧
    (s.busy = true → SameComputation s t ∧ t.errLen = s.errLen)

/-! ## Errors and STATUS -/

/-- `reject E` sets the STATUS bit of its cause code and changes nothing else (60_exceptions.md R241, R247). -/
def Obligations.RejectionSetsOneStatusBit : Prop :=
  ∀ (s : State) (e : ErrBit),
    (∀ n, (statusWord (reject s e)).getLsbD n = ((statusWord s).getLsbD n || n == errCode e)) ∧
    SameComputation s (reject s e) ∧ SameModelFields s (reject s e)

/-- The layout of STATUS and SEQ as the host reads them (10_state.md R25, R28), with the numbers of the phases (R33), and
the output signals (R43). -/
def Obligations.StatusAndSeqLayout : Prop :=
  ∀ s : State, ∃ v q : Word,
    ReadsAs s 0x00000008#32 v ∧ ReadsAs s 0x00000018#32 q ∧
    (∀ n, v.getLsbD n =
      if n = 0 then s.busy else if n = 1 then s.done else if n = 8 then s.errCmd else if n = 9 then s.errBusy
      else if n = 10 then s.errLen else if n = 11 then s.errWr else false) ∧
    q.extractLsb' 0 3 =
      (match s.phase with
        | .idle => 0#3
        | .sched => 1#3
        | .loadwv => 2#3
        | .round => 3#3
        | .fold => 4#3
        | .format => 5#3
        | .unused6 => 6#3
        | .unused7 => 7#3) ∧
    (∀ n, 3 ≤ n → q.getLsbD n = if 8 ≤ n then s.seqStep.getLsbD (n - 8) else false) ∧
    busySignal s = v.getLsbD 0 ∧ doneSignal s = v.getLsbD 1 ∧
    errSignal s = (v.getLsbD 8 || v.getLsbD 9 || v.getLsbD 10 || v.getLsbD 11)

/-- The W1C write of STATUS, at any time (10_state.md R25, 60_exceptions.md R253): bits 8 to 11 lie in lane 1. -/
def Obligations.StatusWriteClearsOnes : Prop :=
  ∀ (s : State) (d : Word) (wstrb : Strobe), wstrb ≠ 0#4 →
    transact s (.write 0x00000008#32 d wstrb) = .next
      { s with
        errCmd := s.errCmd && !(wstrb.getLsbD 1 && d.getLsbD 8)
        errBusy := s.errBusy && !(wstrb.getLsbD 1 && d.getLsbD 9)
        errLen := s.errLen && !(wstrb.getLsbD 1 && d.getLsbD 10)
        errWr := s.errWr && !(wstrb.getLsbD 1 && d.getLsbD 11)
        response := some (.write false) }

/-! ## Bus transactions -/

/-- 20_memory.md R62: the alignment check precedes everything else. -/
def Obligations.MisalignedAccessHasNoEffect : Prop :=
  ∀ (s : State) (addr : Word), addr.toNat % 4 ≠ 0 →
    transact s (.read addr) = .next { s with response := some (.read 0x00000000#32 true) } ∧
    ∀ (wdata : Word) (wstrb : Strobe),
      transact s (.write addr wdata wstrb) = .next { s with response := some (.write true) }

/-- A write with no strobe set is no write at all, even while BUSY = 1 (20_memory.md R64). -/
def Obligations.ZeroStrobeWriteHasNoEffect : Prop :=
  ∀ (s : State) (addr wdata : Word), addr.toNat % 4 = 0 →
    transact s (.write addr wdata 0#4) = .next { s with response := some (.write false) }

/-- Writes of LEN_LO and LEN_HI while BUSY = 0: bit n of LEN comes from the write where its lane is enabled
(10_state.md R26, 20_memory.md R64, R66). -/
def Obligations.LenWritesMergeLanes : Prop :=
  ∀ (s : State) (d : Word) (wstrb : Strobe), s.busy = false → wstrb ≠ 0#4 →
    (∃ x : DWord, transact s (.write 0x0000000C#32 d wstrb) =
        .next { s with len := x, response := some (.write false) } ∧
      ∀ n, x.getLsbD n =
        if n < 32 ∧ wstrb.getLsbD (n / 8) = true then d.getLsbD n else s.len.getLsbD n) ∧
    (∃ x : DWord, transact s (.write 0x00000010#32 d wstrb) =
        .next { s with len := x, response := some (.write false) } ∧
      ∀ n, x.getLsbD n =
        if 32 ≤ n ∧ wstrb.getLsbD ((n - 32) / 8) = true then d.getLsbD (n - 32) else s.len.getLsbD n)

/-- A message write while BUSY = 0 (20_memory.md R66): the enabled lanes are stored, every other byte reads as before. -/
def Obligations.MessageWriteStoresLanes : Prop :=
  ∀ (s : State) (addr d : Word) (wstrb : Strobe),
    s.busy = false → wstrb ≠ 0#4 → addr.toNat % 4 = 0 → InMsgWindow s addr →
    ∃ m : Memory, transact s (.write addr d wstrb) = .next { s with msg := m, response := some (.write false) } ∧
      ∀ a, m.read a =
        if 0x00010000 + a < addr.toNat ∨ addr.toNat + 4 ≤ 0x00010000 + a then s.msg.read a
        else if wstrb.getLsbD (0x00010000 + a - addr.toNat) = true then
          some (d.extractLsb' (8 * (0x00010000 + a - addr.toNat)) 8)
        else s.msg.read a

/-- 60_exceptions.md R245: LEN_LO, LEN_HI and every MSG offset. -/
def Obligations.LenAndMessageWritesWhileBusyAreDiscarded : Prop :=
  ∀ (s : State) (addr d : Word) (wstrb : Strobe),
    s.busy = true → wstrb ≠ 0#4 → addr.toNat % 4 = 0 →
    (addr = 0x0000000C#32 ∨ addr = 0x00000010#32 ∨ InMsgWindow s addr) →
    transact s (.write addr d wstrb) = .next { s with errWr := true, response := some (.write false) }

/-- Reserved offsets read as 0 and ignore writes, and a write to a read-only register behaves the same
(20_memory.md R69, 10_state.md R22). -/
def Obligations.ReservedAndReadOnlyOffsets : Prop :=
  ∀ (s : State) (addr : Word), addr.toNat % 4 = 0 →
    (Reserved s addr → ReadsAs s addr 0x00000000#32) ∧
    (IgnoresWrites s addr → ∀ (d : Word) (wstrb : Strobe),
      transact s (.write addr d wstrb) = .next { s with response := some (.write false) })

/-- The registers that are one word (20_memory.md R65, 10_state.md R23, R24, R26, R27, R29, R30). -/
def Obligations.ControlRegistersRead : Prop :=
  ∀ s : State,
    ReadsAs s 0x00000000#32 0x53484132#32 ∧ ReadsAs s 0x00000004#32 0x00000000#32 ∧
    ReadsAs s 0x0000000C#32 (s.len.extractLsb' 0 32) ∧ ReadsAs s 0x00000010#32 (s.len.extractLsb' 32 32) ∧
    ReadsAs s 0x00000014#32 s.blkCnt ∧ ReadsAs s 0x0000001C#32 s.nblk ∧ ReadsAs s 0x00000020#32 s.config.msgCap

/-- The register files, HEX and the two ROMs (20_memory.md R65, R63), and what the ROMs hold: K[i] comes from the cube
root of the i-th prime, IV[k] from the square root of the k-th (43_compressor.md R171, R172, which mark the constants
as general knowledge; log entry 14). -/
def Obligations.RegisterFilesRead : Prop :=
  ∀ s : State,
    (∀ k : Fin 8, ReadsAs s (BitVec.ofNat 32 (0x040 + 4 * k.val)) s.h[k]) ∧
    (∀ k : Fin 8, ReadsAs s (BitVec.ofNat 32 (0x060 + 4 * k.val)) ivRom[k]) ∧
    (∀ k : Fin 8, ReadsAs s (BitVec.ofNat 32 (0x080 + 4 * k.val)) s.wv[k]) ∧
    (∀ n : Fin 16, ReadsAs s (BitVec.ofNat 32 (0x100 + 4 * n.val))
      (s.hex[4 * n.val + 3] ++ s.hex[4 * n.val + 2] ++ s.hex[4 * n.val + 1] ++ s.hex[4 * n.val])) ∧
    (∀ t : Fin 64, ReadsAs s (BitVec.ofNat 32 (0x200 + 4 * t.val)) s.w[t]) ∧
    (∀ i : Fin 64, ReadsAs s (BitVec.ofNat 32 (0x300 + 4 * i.val)) kRom[i]) ∧
    (∀ i : Fin 64, IsRootFraction 3 (firstPrimes.getD i.val 0) kRom[i]) ∧
    (∀ k : Fin 8, IsRootFraction 2 (firstPrimes.getD k.val 0) ivRom[k])

/-- A host read of the message memory (20_memory.md R63, R65): the four bytes, lane 0 first, and the model fault of
60_exceptions.md R248 where one of them is UNWRITTEN. -/
def Obligations.MessageRead : Prop :=
  ∀ (s : State) (j : Nat), s.config.Legal → j % 4 = 0 → j < s.config.msgCap.toNat →
    (∀ b0 b1 b2 b3, s.msg.read j = some b0 → s.msg.read (j + 1) = some b1 → s.msg.read (j + 2) = some b2 →
      s.msg.read (j + 3) = some b3 → ReadsAs s (BitVec.ofNat 32 (0x00010000 + j)) (b3 ++ b2 ++ b1 ++ b0)) ∧
    (∀ i < 4, s.msg.read (j + i) = none →
      transact s (.read (BitVec.ofNat 32 (0x00010000 + j))) = .fault .unwrittenMsgRead)

/-! ## Operators and functions -/

/-- The operators (40_operators.md R110 to R115), each by its value or bit by bit; that the order of a sum's terms does
not matter (R110), and a rotation by 0 or by 32 and more (R111), are the spec's own inferences, marked as derived. -/
def Obligations.OperatorsCompute : Prop :=
  (∀ x y, (add32 x y).toNat = (x.toNat + y.toNat) % 2 ^ 32) ∧
  (∀ x y z, add32 x y = add32 y x ∧ add32 (add32 x y) z = add32 x (add32 y z)) ∧
  (∀ x n i, i < 32 → (rotr x n).getLsbD i = x.getLsbD ((i + n) % 32)) ∧
  (∀ x n, (shr x n).toNat = x.toNat / 2 ^ n) ∧
  (∀ x y i, (xor32 x y).getLsbD i = (x.getLsbD i ^^ y.getLsbD i)) ∧
  (∀ x y i, (and32 x y).getLsbD i = (x.getLsbD i && y.getLsbD i)) ∧
  (∀ x, (not32 x).toNat = 0xFFFFFFFF - x.toNat)

/-- σ0, σ1, Σ0 and Σ1 bit by bit (42_scheduler.md R150, R151, 43_compressor.md R175, R176): the shift fills with zeros. -/
def Obligations.SigmaFunctionsCompute : Prop :=
  ∀ (x : Word) (i : Nat), i < 32 →
    (sigma0 x).getLsbD i = (x.getLsbD ((i + 7) % 32) ^^ x.getLsbD ((i + 18) % 32) ^^ x.getLsbD (i + 3)) ∧
    (sigma1 x).getLsbD i = (x.getLsbD ((i + 17) % 32) ^^ x.getLsbD ((i + 19) % 32) ^^ x.getLsbD (i + 10)) ∧
    (bigSigma0 x).getLsbD i =
      (x.getLsbD ((i + 2) % 32) ^^ x.getLsbD ((i + 13) % 32) ^^ x.getLsbD ((i + 22) % 32)) ∧
    (bigSigma1 x).getLsbD i =
      (x.getLsbD ((i + 6) % 32) ^^ x.getLsbD ((i + 11) % 32) ^^ x.getLsbD ((i + 25) % 32))

/-- Ch chooses and Maj is the majority, bit by bit (43_compressor.md R173, R174). -/
def Obligations.ChoiceAndMajorityCompute : Prop :=
  ∀ (x y z : Word) (i : Nat), i < 32 →
    (ch x y z).getLsbD i = (if x.getLsbD i = true then y.getLsbD i else z.getLsbD i) ∧
    (maj x y z).getLsbD i =
      ((x.getLsbD i && y.getLsbD i) || (x.getLsbD i && z.getLsbD i) || (y.getLsbD i && z.getLsbD i))

/-- hexchar (44_formatter.md R200). -/
def Obligations.HexCharacterCodes : Prop :=
  ∀ n : BitVec 4, (hexChar n).toNat = if n.toNat < 10 then 0x30 + n.toNat else 0x61 + (n.toNat - 10)

/-! ## The padder -/

/-- PLEN is the smallest multiple of 64 that is at least LEN + 9 (41_padder.md R131, which marks it as derived). -/
def Obligations.PaddedLengthIsLeast : Prop :=
  ∀ len : DWord, plenOf len % 64 = 0 ∧ len.toNat + 9 ≤ plenOf len ∧
    ∀ n, n % 64 = 0 → len.toNat + 9 ≤ n → plenOf len ≤ n

/-- The bytes PAD gives are the bytes of the document's padded message (41_padder.md R133, which marks it as derived),
for a message that is written and fits. -/
def Obligations.PadIsTheDocumentsPad : Prop :=
  ∀ s : State, s.config.Legal → s.len.toNat ≤ s.config.msgCap.toNat → Written s →
    (padMessage (message s)).length = plenOf s.len ∧
    ∀ j < plenOf s.len, pad s j = .ok ((padMessage (message s)).getD j 0x00#8)

/-! ## The micro-steps -/

/-- LOADW(t) with SchedNext (42_scheduler.md R153, 45_commands.md R221): the first byte goes to bits 31:24. -/
def Obligations.LoadwStep : Prop :=
  ∀ (s : State) (t : Fin 64) (b0 b1 b2 b3 : Byte),
    s.busy = true → s.phase = .sched → s.seqStep.toNat = t.val → t.val < 16 →
    pad s (64 * s.blkCnt.toNat + 4 * t.val) = .ok b0 → pad s (64 * s.blkCnt.toNat + 4 * t.val + 1) = .ok b1 →
    pad s (64 * s.blkCnt.toNat + 4 * t.val + 2) = .ok b2 → pad s (64 * s.blkCnt.toNat + 4 * t.val + 3) = .ok b3 →
    microStep s = .next { s with w := s.w.set t.val (b0 ++ b1 ++ b2 ++ b3), seqStep := s.seqStep + 1#6 }

/-- The model fault of 20_memory.md R70 and 60_exceptions.md R248: LOADW needs a message byte below LEN that is
UNWRITTEN. -/
def Obligations.LoadwFaultsOnUnwrittenByte : Prop :=
  ∀ (s : State) (i : Nat), Inv s → s.busy = true → s.phase = .sched → s.seqStep.toNat < 16 → i < 4 →
    64 * s.blkCnt.toNat + 4 * s.seqStep.toNat + i < s.len.toNat →
    s.msg.read (64 * s.blkCnt.toNat + 4 * s.seqStep.toNat + i) = none →
    microStep s = .fault .unwrittenMsgRead

/-- EXPANDW(t) with SchedNext (42_scheduler.md R154, 45_commands.md R221). -/
def Obligations.ExpandwStep : Prop :=
  ∀ (s : State) (t : Fin 64), s.busy = true → s.phase = .sched → s.seqStep.toNat = t.val → 16 ≤ t.val →
    microStep s = .next
      { s with
        w := s.w.set t.val
          (sigma1 s.w[t.val - 2] + s.w[t.val - 7] + sigma0 s.w[t.val - 15] + s.w[t.val - 16])
        phase := if t.val = 63 then .loadwv else .sched
        seqStep := if t.val = 63 then 0#6 else s.seqStep + 1#6 }

/-- LOADWV with LoadwvNext (43_compressor.md R180, 45_commands.md R222). -/
def Obligations.LoadwvStep : Prop :=
  ∀ s : State, s.busy = true → s.phase = .loadwv →
    microStep s = .next { s with wv := s.h, phase := .round, seqStep := 0#6 }

/-- ROUND(i) with RoundNext (43_compressor.md R177, R181, 45_commands.md R223): every right side reads the values from
before the step. -/
def Obligations.RoundStep : Prop :=
  ∀ (s : State) (i : Fin 64) (T1 T2 : Word),
    s.busy = true → s.phase = .round → s.seqStep.toNat = i.val →
    T1 = s.wv[7] + bigSigma1 s.wv[4] + ch s.wv[4] s.wv[5] s.wv[6] + kRom[i] + s.w[i] →
    T2 = bigSigma0 s.wv[0] + maj s.wv[0] s.wv[1] s.wv[2] →
    microStep s = .next
      { s with
        wv := #v[T1 + T2, s.wv[0], s.wv[1], s.wv[2], s.wv[3] + T1, s.wv[4], s.wv[5], s.wv[6]]
        phase := if i.val = 63 then .fold else .round
        seqStep := if i.val = 63 then 0#6 else s.seqStep + 1#6 }

/-- FOLD with FoldNext (43_compressor.md R182, 45_commands.md R224): BLK_CNT in the test is the value before the step.
That BLK_CNT + 1 wraps at 32 bits, in states that no run reaches, is the model's choice (log entry 15). -/
def Obligations.FoldStep : Prop :=
  ∀ s : State, s.busy = true → s.phase = .fold →
    ∃ v : Vector Word 8,
      microStep s = .next
        { s with
          h := v
          blkCnt := s.blkCnt + 1#32
          phase := if s.blkCnt + 1#32 = s.nblk then .format else .sched
          seqStep := 0#6 } ∧
      ∀ k : Fin 8, v[k].toNat = (s.h[k].toNat + s.wv[k].toNat) % 2 ^ 32

/-- FORMAT with FormatNext (44_formatter.md R201, 45_commands.md R225). -/
def Obligations.FormatStep : Prop :=
  ∀ s : State, s.busy = true → s.phase = .format →
    ∃ x : Vector Byte 64,
      microStep s = .next { s with hex := x, phase := .idle, seqStep := 0#6, busy := false, done := true } ∧
      ∀ k m : Fin 8, x[8 * k.val + m.val] = hexChar (s.h[k].extractLsb' (28 - 4 * m.val) 4)

/-- While BUSY = 0 the sequencer's turn changes nothing (45_commands.md R220, 60_exceptions.md R259; that such a turn
passes is the model's, log entry 3). -/
def Obligations.IdleSequencerChangesNothing : Prop :=
  ∀ s : State, s.busy = false → microStep s = .next s

/-! ## Reset -/

/-- The reset step (70_reset_and_hazards.md R270), whatever the state, also while a HASH runs (R271): every element of
10_state.md R44 is 0, MSG stays, a presented transaction has no effect, a read presented with it returns 0 with
`err` = 0 (at a misaligned offset too: log entry 7), and an aligned write returns `err` = 0 (20_memory.md R61). -/
def Obligations.ResetClearsEverythingButMsg : Prop :=
  ∀ (s : State) (p : Option Txn) (rest : List Input), s.inputs = .reset p :: rest →
    ∃ t, step s = .next t ∧
      t.h = Vector.replicate 8 0#32 ∧ t.wv = Vector.replicate 8 0#32 ∧ t.w = Vector.replicate 64 0#32 ∧
      t.hex = Vector.replicate 64 0#8 ∧ t.len = 0#64 ∧ t.nblk = 0#32 ∧ t.blkCnt = 0#32 ∧ t.phase = .idle ∧
      t.seqStep = 0#6 ∧ t.busy = false ∧ t.done = false ∧ t.errCmd = false ∧ t.errBusy = false ∧
      t.errLen = false ∧ t.errWr = false ∧ t.msg = s.msg ∧ t.config = s.config ∧ t.inputs = rest ∧
      (∀ a, p = some (.read a) → t.response = some (.read 0#32 false)) ∧
      (∀ a d b, p = some (.write a d b) → a.toNat % 4 = 0 → t.response = some (.write false)) ∧
      (p = none → t.response = none)

/-- The reset state (10_state.md R44, 70_reset_and_hazards.md R272), and that a reset step leaves MSG and the parameter
as they are: MSG_CAP and the model's own fields are left open. -/
def Obligations.ResetStateValues : Prop :=
  State.reset.h = Vector.replicate 8 0#32 ∧ State.reset.wv = Vector.replicate 8 0#32 ∧
  State.reset.w = Vector.replicate 64 0#32 ∧ State.reset.hex = Vector.replicate 64 0#8 ∧
  State.reset.len = 0#64 ∧ State.reset.nblk = 0#32 ∧ State.reset.blkCnt = 0#32 ∧ State.reset.phase = .idle ∧
  State.reset.seqStep = 0#6 ∧ State.reset.busy = false ∧ State.reset.done = false ∧
  State.reset.errCmd = false ∧ State.reset.errBusy = false ∧ State.reset.errLen = false ∧
  State.reset.errWr = false ∧ (∀ a, State.reset.msg.read a = none) ∧
  ∀ (s : State) (p : Option Txn), (resetStep s p).msg = s.msg ∧ (resetStep s p).config = s.config

/-! ## Whole-machine rules -/

/-- What writes H (10_state.md R31, R44): the acceptance of INIT or HASH, FOLD, and reset. -/
def Obligations.OnlyThreeThingsAndResetWriteH : Prop :=
  ∀ s t : State, step s = .next t →
    t.h = s.h ∨ (AcceptedTurn s ∧ t.h = ivRom) ∨
    (SequencerTurn s ∧ s.busy = true ∧ s.phase = .fold ∧ ∀ k : Fin 8, t.h[k] = s.h[k] + s.wv[k]) ∨
    (ResetTurn s ∧ t.h = Vector.replicate 8 0#32)

/-- What writes wv, W and HEX (10_state.md R34, R35, R38). -/
def Obligations.DatapathWriters : Prop :=
  ∀ s t : State, step s = .next t →
    (t.wv = s.wv ∨ ResetTurn s ∨
      (SequencerTurn s ∧ s.busy = true ∧ (s.phase = .loadwv ∨ s.phase = .round))) ∧
    (t.w = s.w ∨ ResetTurn s ∨ (SequencerTurn s ∧ s.busy = true ∧ s.phase = .sched)) ∧
    (t.hex = s.hex ∨ ResetTurn s ∨ (AcceptedTurn s ∧ t.hex = Vector.replicate 64 0#8) ∨
      (SequencerTurn s ∧ s.busy = true ∧ s.phase = .format))

/-- What writes BUSY and DONE (10_state.md R40). -/
def Obligations.BusyAndDoneWriters : Prop :=
  ∀ s t : State, step s = .next t →
    (t.busy ≠ s.busy →
      (t.busy = true ∧ AcceptedTurn s ∧ CommandTurn s .hash) ∨
      (t.busy = false ∧ (ResetTurn s ∨ (SequencerTurn s ∧ s.phase = .format)))) ∧
    (t.done ≠ s.done →
      (t.done = true ∧ SequencerTurn s ∧ s.busy = true ∧ s.phase = .format) ∨
      (t.done = false ∧ (ResetTurn s ∨ AcceptedTurn s)))

/-- What sets and what clears an error bit (10_state.md R41, 60_exceptions.md R242 to R245). -/
def Obligations.ErrorBitWriters : Prop :=
  ∀ s t : State, step s = .next t →
    (s.errBusy = false → t.errBusy = true → s.busy = true ∧ ∃ d st, WriteTurn s 0x00000004#32 d st) ∧
    (s.errCmd = false → t.errCmd = true → s.busy = false ∧
      ∃ d st r, WriteTurn s 0x00000004#32 d st ∧ decode (effective d st) = .error r) ∧
    (s.errLen = false → t.errLen = true →
      s.busy = false ∧ CommandTurn s .hash ∧ s.config.msgCap.toNat < s.len.toNat) ∧
    (s.errWr = false → t.errWr = true → s.busy = true ∧
      ∃ a d st, WriteTurn s a d st ∧ (a = 0x0000000C#32 ∨ a = 0x00000010#32 ∨ InMsgWindow s a)) ∧
    ((s.errBusy = true ∧ t.errBusy = false) ∨ (s.errCmd = true ∧ t.errCmd = false) ∨
      (s.errLen = true ∧ t.errLen = false) ∨ (s.errWr = true ∧ t.errWr = false) →
      ResetTurn s ∨ ∃ d st, WriteTurn s 0x00000008#32 d st)

/-- What writes MSG and LEN (10_state.md R26, R39, 20_memory.md R70): the host only, while BUSY = 0, and reset for LEN;
no step writes the parameters (00_scope.md R7). -/
def Obligations.MessageAndLengthWriters : Prop :=
  ∀ s t : State, step s = .next t →
    (t.msg = s.msg ∨ (s.busy = false ∧ ∃ a d st, WriteTurn s a d st ∧ InMsgWindow s a)) ∧
    (t.len = s.len ∨ ResetTurn s ∨
      (s.busy = false ∧ ∃ a d st, WriteTurn s a d st ∧ (a = 0x0000000C#32 ∨ a = 0x00000010#32))) ∧
    t.config = s.config

/-- The error bits never affect the datapath or the sequencer (10_state.md R41): with other error bits the machine
takes the same step, up to error bits and the bus response, or stops in the same way. -/
def Obligations.ErrorBitsDoNotInterfere : Prop :=
  ∀ (s : State) (e1 e2 e3 e4 : Bool),
    SameOutcome (step s) (step { s with errCmd := e1, errBusy := e2, errLen := e3, errWr := e4 })

/-- A transaction while BUSY = 1 touches neither the datapath nor the sequencer, nor MSG and LEN (45_commands.md R227,
20_memory.md R76, which mark it as derived). -/
def Obligations.TransactionsWhileBusyLeaveTheHashAlone : Prop :=
  ∀ (s t : State) (x : Txn), s.busy = true → transact s x = .next t → SameComputation s t

/-- A finished digest stays readable until the next accepted INIT or HASH, or reset (20_memory.md R77, which marks it as
derived). -/
def Obligations.FinishedDigestStays : Prop :=
  ∀ s t : State, s.busy = false → s.done = true → step s = .next t → ¬ ResetTurn s → ¬ AcceptedTurn s →
    t.h = s.h ∧ t.hex = s.hex ∧ t.w = s.w ∧ t.wv = s.wv ∧ t.blkCnt = s.blkCnt ∧ t.nblk = s.nblk ∧
    t.busy = false ∧ t.done = true

/-- Both orders of FORMAT and a HASH write are admitted (60_exceptions.md R251): the command after FORMAT is accepted,
the one before it is lost. -/
def Obligations.BothOrdersAtFormatAreAdmitted : Prop :=
  ∀ s : State, Inv s → s.phase = .format →
    (∃ t, run 2 { s with inputs := [.sequencer, issue .hash] } = .next t ∧
      t.busy = true ∧ t.errBusy = s.errBusy) ∧
    (∃ t, run 2 { s with inputs := [issue .hash, .sequencer] } = .next t ∧
      t.busy = false ∧ t.done = true ∧ t.errBusy = true)

/-! ## Invariants -/

/-- The reset state meets the invariant (with the model's MSG_CAP of log entry 1). -/
def Obligations.ResetStateMeetsInvariant : Prop := Inv State.reset

/-- Every step keeps the invariant: legal parameters, canonical memory, BUSY with PHASE, STEP, DONE, LEN, NBLK, BLK_CNT,
HEX (10_state.md R27, R29, R33, R39, R40). -/
def Obligations.EveryStepKeepsInvariant : Prop :=
  ∀ s t : State, Inv s → step s = .next t → Inv t

/-- Every step keeps what H, W and wv hold of the running HASH, in the terms of the document's algorithm, whatever the
interleaving (42_scheduler.md R155, 43_compressor.md R183, 45_commands.md R230, which mark it as derived). -/
def Obligations.EveryStepKeepsHashProgress : Prop :=
  ∀ s t : State, Inv s → HashProgress s → step s = .next t → HashProgress t

/-- In a state that meets the invariant the only stop is the model fault of 60_exceptions.md R248, and a HASH over a
written message meets none: every turn of the sequencer completes (45_commands.md R213, 43_compressor.md R184; that a
turn completes while BUSY = 0 is the model's choice, log entry 3). -/
def Obligations.OnlyUnwrittenReadsStop : Prop :=
  ∀ s : State, Inv s →
    (∀ f, step s = .fault f → f = .unwrittenMsgRead) ∧ (∀ r, step s ≠ .refused r) ∧
    (Written s → SequencerTurn s → ∃ t, step s = .next t)

/-! ## A HASH as a whole -/

/-- Each micro-step of a running HASH is one of the 130 · NBLK + 1 (45_commands.md R226, which marks it as derived). -/
def Obligations.MicroStepsCountDown : Prop :=
  ∀ s t : State, Inv s → s.busy = true → microStep s = .next t →
    remaining t + 1 = remaining s ∧ (t.busy = false ↔ remaining s = 1)

/-- FORMAT ends a HASH with the digest of its message (45_commands.md R230, 44_formatter.md R202, marked as derived). -/
def Obligations.FormatDeliversTheDigest : Prop :=
  ∀ s t : State, Inv s → HashProgress s → s.phase = .format → microStep s = .next t → Delivered t (message s)

/-- An accepted HASH takes exactly 130 · NBLK + 1 micro-steps and ends with the digest of MSG[0..LEN−1]
(45_commands.md R226, R227, R230, which mark it as derived); the sequencer has every turn (log entry 2). -/
def Obligations.AcceptedHashDeliversTheDigest : Prop :=
  ∀ s t : State, Inv s → s.busy = false → s.len.toNat ≤ s.config.msgCap.toNat → Written s → s.inputs = [] →
    exec .hash s = .next t →
    (∀ k ≤ 130 * ((s.len.toNat + 72) / 64), ∃ v, run k t = .next v ∧ v.busy = true) ∧
    ∃ u, run (130 * ((s.len.toNat + 72) / 64) + 1) t = .next u ∧ Delivered u (message s) ∧
      u.msg = s.msg ∧ u.len = s.len ∧ SameErrors s u

/-- The same whatever the host does between the micro-steps (45_commands.md R230, R231, which mark it as derived): any
transactions, in any number and order, with no reset, as long as no read covers an UNWRITTEN byte. -/
def Obligations.InterleavedHashDeliversTheDigest : Prop :=
  ∀ (s t : State) (ins rest : List Input), Inv s → s.busy = false → s.len.toNat ≤ s.config.msgCap.toNat → Written s →
    s.inputs = ins ++ .sequencer :: rest → ins.count .sequencer = 130 * ((s.len.toNat + 72) / 64) →
    (∀ p, .reset p ∉ ins) →
    (∀ a, .bus (.read a) ∈ ins → a.toNat % 4 = 0 → InMsgWindow s a →
      ∀ i < 4, (s.msg.read (a.toNat - 0x00010000 + i)).isSome) →
    exec .hash s = .next t →
    ∃ u, run (ins.length + 1) t = .next u ∧ Delivered u (message s) ∧
      u.msg = s.msg ∧ u.len = s.len ∧ u.inputs = rest

/-- The end state depends on the message and its length only (45_commands.md R231, marked as derived): not on an earlier
HASH, the error bits, the bytes at or above LEN, or MSG_CAP. With no input waiting the sequencer has every turn
(log entry 2). -/
def Obligations.EndStateDependsOnTheMessageOnly : Prop :=
  ∀ s s' t t' : State, Inv s → Inv s' → s.busy = false → s'.busy = false →
    s.len.toNat ≤ s.config.msgCap.toNat → s'.len.toNat ≤ s'.config.msgCap.toNat → Written s → Written s' →
    s.inputs = [] → s'.inputs = [] → s.len = s'.len → (∀ j < s.len.toNat, s.msg.read j = s'.msg.read j) →
    exec .hash s = .next t → exec .hash s' = .next t' →
    ∃ u u', run (130 * ((s.len.toNat + 72) / 64) + 1) t = .next u ∧
      run (130 * ((s.len.toNat + 72) / 64) + 1) t' = .next u' ∧
      u.h = u'.h ∧ u.hex = u'.hex ∧ u.w = u'.w ∧ u.wv = u'.wv ∧ u.blkCnt = u'.blkCnt ∧ u.nblk = u'.nblk ∧
      u.done = u'.done

/-- The host's procedure for a digest (70_reset_and_hazards.md R273, 30_encoding.md R98): LOADMSG, SETLEN and HASH from any
idle state, then the sequencer's turns, which it has once no input is left (log entry 2), give the digest of any message
that fits (by 45_commands.md R230, which marks it as derived). -/
def Obligations.HostProcedureComputesSha256 : Prop :=
  ∀ (s : State) (m : List Byte), Inv s → s.busy = false → m.length ≤ s.config.msgCap.toNat →
    s.inputs = hashInputs m →
    ∃ u, run ((hashInputs m).length + (130 * ((m.length + 72) / 64) + 1)) s = .next u ∧
      Delivered u m ∧ message u = m ∧ u.len.toNat = m.length
end

