-- ==== Sys2Proof/Laws/State.lean ====
section
/-!
SUPPORT. One lemma per field per named update of the state, so that no later proof unfolds a record update.
-/

namespace Sys2Proof.Machine

/-! ### reject -/

@[simp] theorem reject_h (s : State) (e : ErrBit) : (reject s e).h = s.h := by cases e <;> rfl

@[simp] theorem reject_wv (s : State) (e : ErrBit) : (reject s e).wv = s.wv := by cases e <;> rfl

@[simp] theorem reject_w (s : State) (e : ErrBit) : (reject s e).w = s.w := by cases e <;> rfl

@[simp] theorem reject_hex (s : State) (e : ErrBit) : (reject s e).hex = s.hex := by cases e <;> rfl

@[simp] theorem reject_msg (s : State) (e : ErrBit) : (reject s e).msg = s.msg := by cases e <;> rfl

@[simp] theorem reject_len (s : State) (e : ErrBit) : (reject s e).len = s.len := by cases e <;> rfl

@[simp] theorem reject_nblk (s : State) (e : ErrBit) : (reject s e).nblk = s.nblk := by cases e <;> rfl

@[simp] theorem reject_blkCnt (s : State) (e : ErrBit) : (reject s e).blkCnt = s.blkCnt := by cases e <;> rfl

@[simp] theorem reject_phase (s : State) (e : ErrBit) : (reject s e).phase = s.phase := by cases e <;> rfl

@[simp] theorem reject_seqStep (s : State) (e : ErrBit) : (reject s e).seqStep = s.seqStep := by cases e <;> rfl

@[simp] theorem reject_busy (s : State) (e : ErrBit) : (reject s e).busy = s.busy := by cases e <;> rfl

@[simp] theorem reject_done (s : State) (e : ErrBit) : (reject s e).done = s.done := by cases e <;> rfl

@[simp] theorem reject_errCmd (s : State) (e : ErrBit) : (reject s e).errCmd = (s.errCmd || decide (e = .cmd)) := by
  cases e <;> simp [reject]

@[simp] theorem reject_errBusy (s : State) (e : ErrBit) : (reject s e).errBusy = (s.errBusy || decide (e = .busy)) := by
  cases e <;> simp [reject]

@[simp] theorem reject_errLen (s : State) (e : ErrBit) : (reject s e).errLen = (s.errLen || decide (e = .len)) := by
  cases e <;> simp [reject]

@[simp] theorem reject_errWr (s : State) (e : ErrBit) : (reject s e).errWr = (s.errWr || decide (e = .wr)) := by
  cases e <;> simp [reject]

@[simp] theorem reject_config (s : State) (e : ErrBit) : (reject s e).config = s.config := by cases e <;> rfl

@[simp] theorem reject_inputs (s : State) (e : ErrBit) : (reject s e).inputs = s.inputs := by cases e <;> rfl

@[simp] theorem reject_response (s : State) (e : ErrBit) : (reject s e).response = s.response := by cases e <;> rfl

@[simp] theorem reject_draws (s : State) (e : ErrBit) : (reject s e).draws = s.draws := by cases e <;> rfl

/-! ### clearErrors -/

@[simp] theorem clearErrors_h (s : State) (d : Word) : (clearErrors s d).h = s.h := rfl

@[simp] theorem clearErrors_wv (s : State) (d : Word) : (clearErrors s d).wv = s.wv := rfl

@[simp] theorem clearErrors_w (s : State) (d : Word) : (clearErrors s d).w = s.w := rfl

@[simp] theorem clearErrors_hex (s : State) (d : Word) : (clearErrors s d).hex = s.hex := rfl

@[simp] theorem clearErrors_msg (s : State) (d : Word) : (clearErrors s d).msg = s.msg := rfl

@[simp] theorem clearErrors_len (s : State) (d : Word) : (clearErrors s d).len = s.len := rfl

@[simp] theorem clearErrors_nblk (s : State) (d : Word) : (clearErrors s d).nblk = s.nblk := rfl

@[simp] theorem clearErrors_blkCnt (s : State) (d : Word) : (clearErrors s d).blkCnt = s.blkCnt := rfl

@[simp] theorem clearErrors_phase (s : State) (d : Word) : (clearErrors s d).phase = s.phase := rfl

@[simp] theorem clearErrors_seqStep (s : State) (d : Word) : (clearErrors s d).seqStep = s.seqStep := rfl

@[simp] theorem clearErrors_busy (s : State) (d : Word) : (clearErrors s d).busy = s.busy := rfl

@[simp] theorem clearErrors_done (s : State) (d : Word) : (clearErrors s d).done = s.done := rfl

@[simp] theorem clearErrors_errCmd (s : State) (d : Word) :
    (clearErrors s d).errCmd = (s.errCmd && !d.getLsbD 8) := rfl

@[simp] theorem clearErrors_errBusy (s : State) (d : Word) :
    (clearErrors s d).errBusy = (s.errBusy && !d.getLsbD 9) := rfl

@[simp] theorem clearErrors_errLen (s : State) (d : Word) :
    (clearErrors s d).errLen = (s.errLen && !d.getLsbD 10) := rfl

@[simp] theorem clearErrors_errWr (s : State) (d : Word) :
    (clearErrors s d).errWr = (s.errWr && !d.getLsbD 11) := rfl

@[simp] theorem clearErrors_config (s : State) (d : Word) : (clearErrors s d).config = s.config := rfl

@[simp] theorem clearErrors_inputs (s : State) (d : Word) : (clearErrors s d).inputs = s.inputs := rfl

@[simp] theorem clearErrors_response (s : State) (d : Word) : (clearErrors s d).response = s.response := rfl

@[simp] theorem clearErrors_draws (s : State) (d : Word) : (clearErrors s d).draws = s.draws := rfl

/-! ### storeMsg -/

@[simp] theorem storeMsg_h (s : State) (j : Nat) (d : Word) (b : Strobe) : (storeMsg s j d b).h = s.h := rfl

@[simp] theorem storeMsg_wv (s : State) (j : Nat) (d : Word) (b : Strobe) : (storeMsg s j d b).wv = s.wv := rfl

@[simp] theorem storeMsg_w (s : State) (j : Nat) (d : Word) (b : Strobe) : (storeMsg s j d b).w = s.w := rfl

@[simp] theorem storeMsg_hex (s : State) (j : Nat) (d : Word) (b : Strobe) : (storeMsg s j d b).hex = s.hex := rfl

@[simp] theorem storeMsg_msg (s : State) (j : Nat) (d : Word) (b : Strobe) :
    (storeMsg s j d b).msg = writeLanes s.msg j d b := rfl

@[simp] theorem storeMsg_len (s : State) (j : Nat) (d : Word) (b : Strobe) : (storeMsg s j d b).len = s.len := rfl

@[simp] theorem storeMsg_nblk (s : State) (j : Nat) (d : Word) (b : Strobe) :
    (storeMsg s j d b).nblk = s.nblk := rfl

@[simp] theorem storeMsg_blkCnt (s : State) (j : Nat) (d : Word) (b : Strobe) :
    (storeMsg s j d b).blkCnt = s.blkCnt := rfl

@[simp] theorem storeMsg_phase (s : State) (j : Nat) (d : Word) (b : Strobe) :
    (storeMsg s j d b).phase = s.phase := rfl

@[simp] theorem storeMsg_seqStep (s : State) (j : Nat) (d : Word) (b : Strobe) :
    (storeMsg s j d b).seqStep = s.seqStep := rfl

@[simp] theorem storeMsg_busy (s : State) (j : Nat) (d : Word) (b : Strobe) :
    (storeMsg s j d b).busy = s.busy := rfl

@[simp] theorem storeMsg_done (s : State) (j : Nat) (d : Word) (b : Strobe) :
    (storeMsg s j d b).done = s.done := rfl

@[simp] theorem storeMsg_errCmd (s : State) (j : Nat) (d : Word) (b : Strobe) :
    (storeMsg s j d b).errCmd = s.errCmd := rfl

@[simp] theorem storeMsg_errBusy (s : State) (j : Nat) (d : Word) (b : Strobe) :
    (storeMsg s j d b).errBusy = s.errBusy := rfl

@[simp] theorem storeMsg_errLen (s : State) (j : Nat) (d : Word) (b : Strobe) :
    (storeMsg s j d b).errLen = s.errLen := rfl

@[simp] theorem storeMsg_errWr (s : State) (j : Nat) (d : Word) (b : Strobe) :
    (storeMsg s j d b).errWr = s.errWr := rfl

@[simp] theorem storeMsg_config (s : State) (j : Nat) (d : Word) (b : Strobe) :
    (storeMsg s j d b).config = s.config := rfl

@[simp] theorem storeMsg_inputs (s : State) (j : Nat) (d : Word) (b : Strobe) :
    (storeMsg s j d b).inputs = s.inputs := rfl

@[simp] theorem storeMsg_response (s : State) (j : Nat) (d : Word) (b : Strobe) :
    (storeMsg s j d b).response = s.response := rfl

@[simp] theorem storeMsg_draws (s : State) (j : Nat) (d : Word) (b : Strobe) :
    (storeMsg s j d b).draws = s.draws := rfl

/-! ### storeW -/

@[simp] theorem storeW_h (s : State) (t : BitVec 6) (x : Word) : (storeW s t x).h = s.h := rfl

@[simp] theorem storeW_wv (s : State) (t : BitVec 6) (x : Word) : (storeW s t x).wv = s.wv := rfl

@[simp] theorem storeW_w (s : State) (t : BitVec 6) (x : Word) : (storeW s t x).w = s.w.set t.toNat x t.isLt := rfl

@[simp] theorem storeW_hex (s : State) (t : BitVec 6) (x : Word) : (storeW s t x).hex = s.hex := rfl

@[simp] theorem storeW_msg (s : State) (t : BitVec 6) (x : Word) : (storeW s t x).msg = s.msg := rfl

@[simp] theorem storeW_len (s : State) (t : BitVec 6) (x : Word) : (storeW s t x).len = s.len := rfl

@[simp] theorem storeW_nblk (s : State) (t : BitVec 6) (x : Word) : (storeW s t x).nblk = s.nblk := rfl

@[simp] theorem storeW_blkCnt (s : State) (t : BitVec 6) (x : Word) : (storeW s t x).blkCnt = s.blkCnt := rfl

@[simp] theorem storeW_phase (s : State) (t : BitVec 6) (x : Word) : (storeW s t x).phase = s.phase := rfl

@[simp] theorem storeW_seqStep (s : State) (t : BitVec 6) (x : Word) : (storeW s t x).seqStep = s.seqStep := rfl

@[simp] theorem storeW_busy (s : State) (t : BitVec 6) (x : Word) : (storeW s t x).busy = s.busy := rfl

@[simp] theorem storeW_done (s : State) (t : BitVec 6) (x : Word) : (storeW s t x).done = s.done := rfl

@[simp] theorem storeW_errCmd (s : State) (t : BitVec 6) (x : Word) : (storeW s t x).errCmd = s.errCmd := rfl

@[simp] theorem storeW_errBusy (s : State) (t : BitVec 6) (x : Word) : (storeW s t x).errBusy = s.errBusy := rfl

@[simp] theorem storeW_errLen (s : State) (t : BitVec 6) (x : Word) : (storeW s t x).errLen = s.errLen := rfl

@[simp] theorem storeW_errWr (s : State) (t : BitVec 6) (x : Word) : (storeW s t x).errWr = s.errWr := rfl

@[simp] theorem storeW_config (s : State) (t : BitVec 6) (x : Word) : (storeW s t x).config = s.config := rfl

@[simp] theorem storeW_inputs (s : State) (t : BitVec 6) (x : Word) : (storeW s t x).inputs = s.inputs := rfl

@[simp] theorem storeW_response (s : State) (t : BitVec 6) (x : Word) : (storeW s t x).response = s.response := rfl

@[simp] theorem storeW_draws (s : State) (t : BitVec 6) (x : Word) : (storeW s t x).draws = s.draws := rfl

/-! ### expandW -/

@[simp] theorem expandW_h (s : State) (t : BitVec 6) : (expandW s t).h = s.h := rfl

@[simp] theorem expandW_wv (s : State) (t : BitVec 6) : (expandW s t).wv = s.wv := rfl

@[simp] theorem expandW_w (s : State) (t : BitVec 6) :
    (expandW s t).w = s.w.set t.toNat (expandSum (wAt s (t - 2)) (wAt s (t - 7)) (wAt s (t - 15)) (wAt s (t - 16))) t.isLt := rfl

@[simp] theorem expandW_hex (s : State) (t : BitVec 6) : (expandW s t).hex = s.hex := rfl

@[simp] theorem expandW_msg (s : State) (t : BitVec 6) : (expandW s t).msg = s.msg := rfl

@[simp] theorem expandW_len (s : State) (t : BitVec 6) : (expandW s t).len = s.len := rfl

@[simp] theorem expandW_nblk (s : State) (t : BitVec 6) : (expandW s t).nblk = s.nblk := rfl

@[simp] theorem expandW_blkCnt (s : State) (t : BitVec 6) : (expandW s t).blkCnt = s.blkCnt := rfl

@[simp] theorem expandW_phase (s : State) (t : BitVec 6) : (expandW s t).phase = s.phase := rfl

@[simp] theorem expandW_seqStep (s : State) (t : BitVec 6) : (expandW s t).seqStep = s.seqStep := rfl

@[simp] theorem expandW_busy (s : State) (t : BitVec 6) : (expandW s t).busy = s.busy := rfl

@[simp] theorem expandW_done (s : State) (t : BitVec 6) : (expandW s t).done = s.done := rfl

@[simp] theorem expandW_errCmd (s : State) (t : BitVec 6) : (expandW s t).errCmd = s.errCmd := rfl

@[simp] theorem expandW_errBusy (s : State) (t : BitVec 6) : (expandW s t).errBusy = s.errBusy := rfl

@[simp] theorem expandW_errLen (s : State) (t : BitVec 6) : (expandW s t).errLen = s.errLen := rfl

@[simp] theorem expandW_errWr (s : State) (t : BitVec 6) : (expandW s t).errWr = s.errWr := rfl

@[simp] theorem expandW_config (s : State) (t : BitVec 6) : (expandW s t).config = s.config := rfl

@[simp] theorem expandW_inputs (s : State) (t : BitVec 6) : (expandW s t).inputs = s.inputs := rfl

@[simp] theorem expandW_response (s : State) (t : BitVec 6) : (expandW s t).response = s.response := rfl

@[simp] theorem expandW_draws (s : State) (t : BitVec 6) : (expandW s t).draws = s.draws := rfl

/-! ### loadWv -/

@[simp] theorem loadWv_h (s : State) : (loadWv s).h = s.h := rfl

@[simp] theorem loadWv_wv (s : State) : (loadWv s).wv = s.h := rfl

@[simp] theorem loadWv_w (s : State) : (loadWv s).w = s.w := rfl

@[simp] theorem loadWv_hex (s : State) : (loadWv s).hex = s.hex := rfl

@[simp] theorem loadWv_msg (s : State) : (loadWv s).msg = s.msg := rfl

@[simp] theorem loadWv_len (s : State) : (loadWv s).len = s.len := rfl

@[simp] theorem loadWv_nblk (s : State) : (loadWv s).nblk = s.nblk := rfl

@[simp] theorem loadWv_blkCnt (s : State) : (loadWv s).blkCnt = s.blkCnt := rfl

@[simp] theorem loadWv_phase (s : State) : (loadWv s).phase = s.phase := rfl

@[simp] theorem loadWv_seqStep (s : State) : (loadWv s).seqStep = s.seqStep := rfl

@[simp] theorem loadWv_busy (s : State) : (loadWv s).busy = s.busy := rfl

@[simp] theorem loadWv_done (s : State) : (loadWv s).done = s.done := rfl

@[simp] theorem loadWv_errCmd (s : State) : (loadWv s).errCmd = s.errCmd := rfl

@[simp] theorem loadWv_errBusy (s : State) : (loadWv s).errBusy = s.errBusy := rfl

@[simp] theorem loadWv_errLen (s : State) : (loadWv s).errLen = s.errLen := rfl

@[simp] theorem loadWv_errWr (s : State) : (loadWv s).errWr = s.errWr := rfl

@[simp] theorem loadWv_config (s : State) : (loadWv s).config = s.config := rfl

@[simp] theorem loadWv_inputs (s : State) : (loadWv s).inputs = s.inputs := rfl

@[simp] theorem loadWv_response (s : State) : (loadWv s).response = s.response := rfl

@[simp] theorem loadWv_draws (s : State) : (loadWv s).draws = s.draws := rfl

/-! ### roundStep -/

@[simp] theorem roundStep_h (s : State) (i : BitVec 6) : (roundStep s i).h = s.h := rfl

@[simp] theorem roundStep_wv (s : State) (i : BitVec 6) :
    (roundStep s i).wv = roundWords s.wv (kRom[i.toNat]'i.isLt) (s.w[i.toNat]'i.isLt) := rfl

@[simp] theorem roundStep_w (s : State) (i : BitVec 6) : (roundStep s i).w = s.w := rfl

@[simp] theorem roundStep_hex (s : State) (i : BitVec 6) : (roundStep s i).hex = s.hex := rfl

@[simp] theorem roundStep_msg (s : State) (i : BitVec 6) : (roundStep s i).msg = s.msg := rfl

@[simp] theorem roundStep_len (s : State) (i : BitVec 6) : (roundStep s i).len = s.len := rfl

@[simp] theorem roundStep_nblk (s : State) (i : BitVec 6) : (roundStep s i).nblk = s.nblk := rfl

@[simp] theorem roundStep_blkCnt (s : State) (i : BitVec 6) : (roundStep s i).blkCnt = s.blkCnt := rfl

@[simp] theorem roundStep_phase (s : State) (i : BitVec 6) : (roundStep s i).phase = s.phase := rfl

@[simp] theorem roundStep_seqStep (s : State) (i : BitVec 6) : (roundStep s i).seqStep = s.seqStep := rfl

@[simp] theorem roundStep_busy (s : State) (i : BitVec 6) : (roundStep s i).busy = s.busy := rfl

@[simp] theorem roundStep_done (s : State) (i : BitVec 6) : (roundStep s i).done = s.done := rfl

@[simp] theorem roundStep_errCmd (s : State) (i : BitVec 6) : (roundStep s i).errCmd = s.errCmd := rfl

@[simp] theorem roundStep_errBusy (s : State) (i : BitVec 6) : (roundStep s i).errBusy = s.errBusy := rfl

@[simp] theorem roundStep_errLen (s : State) (i : BitVec 6) : (roundStep s i).errLen = s.errLen := rfl

@[simp] theorem roundStep_errWr (s : State) (i : BitVec 6) : (roundStep s i).errWr = s.errWr := rfl

@[simp] theorem roundStep_config (s : State) (i : BitVec 6) : (roundStep s i).config = s.config := rfl

@[simp] theorem roundStep_inputs (s : State) (i : BitVec 6) : (roundStep s i).inputs = s.inputs := rfl

@[simp] theorem roundStep_response (s : State) (i : BitVec 6) : (roundStep s i).response = s.response := rfl

@[simp] theorem roundStep_draws (s : State) (i : BitVec 6) : (roundStep s i).draws = s.draws := rfl

/-! ### foldStep -/

@[simp] theorem foldStep_h (s : State) : (foldStep s).h = foldWords s.h s.wv := rfl

@[simp] theorem foldStep_wv (s : State) : (foldStep s).wv = s.wv := rfl

@[simp] theorem foldStep_w (s : State) : (foldStep s).w = s.w := rfl

@[simp] theorem foldStep_hex (s : State) : (foldStep s).hex = s.hex := rfl

@[simp] theorem foldStep_msg (s : State) : (foldStep s).msg = s.msg := rfl

@[simp] theorem foldStep_len (s : State) : (foldStep s).len = s.len := rfl

@[simp] theorem foldStep_nblk (s : State) : (foldStep s).nblk = s.nblk := rfl

@[simp] theorem foldStep_blkCnt (s : State) : (foldStep s).blkCnt = s.blkCnt := rfl

@[simp] theorem foldStep_phase (s : State) : (foldStep s).phase = s.phase := rfl

@[simp] theorem foldStep_seqStep (s : State) : (foldStep s).seqStep = s.seqStep := rfl

@[simp] theorem foldStep_busy (s : State) : (foldStep s).busy = s.busy := rfl

@[simp] theorem foldStep_done (s : State) : (foldStep s).done = s.done := rfl

@[simp] theorem foldStep_errCmd (s : State) : (foldStep s).errCmd = s.errCmd := rfl

@[simp] theorem foldStep_errBusy (s : State) : (foldStep s).errBusy = s.errBusy := rfl

@[simp] theorem foldStep_errLen (s : State) : (foldStep s).errLen = s.errLen := rfl

@[simp] theorem foldStep_errWr (s : State) : (foldStep s).errWr = s.errWr := rfl

@[simp] theorem foldStep_config (s : State) : (foldStep s).config = s.config := rfl

@[simp] theorem foldStep_inputs (s : State) : (foldStep s).inputs = s.inputs := rfl

@[simp] theorem foldStep_response (s : State) : (foldStep s).response = s.response := rfl

@[simp] theorem foldStep_draws (s : State) : (foldStep s).draws = s.draws := rfl

/-! ### formatStep -/

@[simp] theorem formatStep_h (s : State) : (formatStep s).h = s.h := by unfold formatStep; rfl

@[simp] theorem formatStep_wv (s : State) : (formatStep s).wv = s.wv := by unfold formatStep; rfl

@[simp] theorem formatStep_w (s : State) : (formatStep s).w = s.w := by unfold formatStep; rfl

@[simp] theorem formatStep_hex (s : State) : (formatStep s).hex = hexDigits s.h := by unfold formatStep; rfl

@[simp] theorem formatStep_msg (s : State) : (formatStep s).msg = s.msg := by unfold formatStep; rfl

@[simp] theorem formatStep_len (s : State) : (formatStep s).len = s.len := by unfold formatStep; rfl

@[simp] theorem formatStep_nblk (s : State) : (formatStep s).nblk = s.nblk := by unfold formatStep; rfl

@[simp] theorem formatStep_blkCnt (s : State) : (formatStep s).blkCnt = s.blkCnt := by unfold formatStep; rfl

@[simp] theorem formatStep_phase (s : State) : (formatStep s).phase = s.phase := by unfold formatStep; rfl

@[simp] theorem formatStep_seqStep (s : State) : (formatStep s).seqStep = s.seqStep := by unfold formatStep; rfl

@[simp] theorem formatStep_busy (s : State) : (formatStep s).busy = s.busy := by unfold formatStep; rfl

@[simp] theorem formatStep_done (s : State) : (formatStep s).done = s.done := by unfold formatStep; rfl

@[simp] theorem formatStep_errCmd (s : State) : (formatStep s).errCmd = s.errCmd := by unfold formatStep; rfl

@[simp] theorem formatStep_errBusy (s : State) : (formatStep s).errBusy = s.errBusy := by unfold formatStep; rfl

@[simp] theorem formatStep_errLen (s : State) : (formatStep s).errLen = s.errLen := by unfold formatStep; rfl

@[simp] theorem formatStep_errWr (s : State) : (formatStep s).errWr = s.errWr := by unfold formatStep; rfl

@[simp] theorem formatStep_config (s : State) : (formatStep s).config = s.config := by unfold formatStep; rfl

@[simp] theorem formatStep_inputs (s : State) : (formatStep s).inputs = s.inputs := by unfold formatStep; rfl

@[simp] theorem formatStep_response (s : State) : (formatStep s).response = s.response := by unfold formatStep; rfl

@[simp] theorem formatStep_draws (s : State) : (formatStep s).draws = s.draws := by unfold formatStep; rfl

/-! ### schedNext -/

@[simp] theorem schedNext_h (s : State) : (schedNext s).h = s.h := by unfold schedNext; split <;> rfl

@[simp] theorem schedNext_wv (s : State) : (schedNext s).wv = s.wv := by unfold schedNext; split <;> rfl

@[simp] theorem schedNext_w (s : State) : (schedNext s).w = s.w := by unfold schedNext; split <;> rfl

@[simp] theorem schedNext_hex (s : State) : (schedNext s).hex = s.hex := by unfold schedNext; split <;> rfl

@[simp] theorem schedNext_msg (s : State) : (schedNext s).msg = s.msg := by unfold schedNext; split <;> rfl

@[simp] theorem schedNext_len (s : State) : (schedNext s).len = s.len := by unfold schedNext; split <;> rfl

@[simp] theorem schedNext_nblk (s : State) : (schedNext s).nblk = s.nblk := by unfold schedNext; split <;> rfl

@[simp] theorem schedNext_blkCnt (s : State) : (schedNext s).blkCnt = s.blkCnt := by unfold schedNext; split <;> rfl

@[simp] theorem schedNext_phase (s : State) :
    (schedNext s).phase = (if s.seqStep < 63#6 then s.phase else .loadwv) := by unfold schedNext; split <;> rfl

@[simp] theorem schedNext_seqStep (s : State) :
    (schedNext s).seqStep = (if s.seqStep < 63#6 then s.seqStep + 1#6 else 0#6) := by unfold schedNext; split <;> rfl

@[simp] theorem schedNext_busy (s : State) : (schedNext s).busy = s.busy := by unfold schedNext; split <;> rfl

@[simp] theorem schedNext_done (s : State) : (schedNext s).done = s.done := by unfold schedNext; split <;> rfl

@[simp] theorem schedNext_errCmd (s : State) : (schedNext s).errCmd = s.errCmd := by unfold schedNext; split <;> rfl

@[simp] theorem schedNext_errBusy (s : State) :
    (schedNext s).errBusy = s.errBusy := by unfold schedNext; split <;> rfl

@[simp] theorem schedNext_errLen (s : State) : (schedNext s).errLen = s.errLen := by unfold schedNext; split <;> rfl

@[simp] theorem schedNext_errWr (s : State) : (schedNext s).errWr = s.errWr := by unfold schedNext; split <;> rfl

@[simp] theorem schedNext_config (s : State) : (schedNext s).config = s.config := by unfold schedNext; split <;> rfl

@[simp] theorem schedNext_inputs (s : State) : (schedNext s).inputs = s.inputs := by unfold schedNext; split <;> rfl

@[simp] theorem schedNext_response (s : State) :
    (schedNext s).response = s.response := by unfold schedNext; split <;> rfl

@[simp] theorem schedNext_draws (s : State) : (schedNext s).draws = s.draws := by unfold schedNext; split <;> rfl

/-! ### loadwvNext -/

@[simp] theorem loadwvNext_h (s : State) : (loadwvNext s).h = s.h := rfl

@[simp] theorem loadwvNext_wv (s : State) : (loadwvNext s).wv = s.wv := rfl

@[simp] theorem loadwvNext_w (s : State) : (loadwvNext s).w = s.w := rfl

@[simp] theorem loadwvNext_hex (s : State) : (loadwvNext s).hex = s.hex := rfl

@[simp] theorem loadwvNext_msg (s : State) : (loadwvNext s).msg = s.msg := rfl

@[simp] theorem loadwvNext_len (s : State) : (loadwvNext s).len = s.len := rfl

@[simp] theorem loadwvNext_nblk (s : State) : (loadwvNext s).nblk = s.nblk := rfl

@[simp] theorem loadwvNext_blkCnt (s : State) : (loadwvNext s).blkCnt = s.blkCnt := rfl

@[simp] theorem loadwvNext_phase (s : State) : (loadwvNext s).phase = .round := rfl

@[simp] theorem loadwvNext_seqStep (s : State) : (loadwvNext s).seqStep = 0#6 := rfl

@[simp] theorem loadwvNext_busy (s : State) : (loadwvNext s).busy = s.busy := rfl

@[simp] theorem loadwvNext_done (s : State) : (loadwvNext s).done = s.done := rfl

@[simp] theorem loadwvNext_errCmd (s : State) : (loadwvNext s).errCmd = s.errCmd := rfl

@[simp] theorem loadwvNext_errBusy (s : State) : (loadwvNext s).errBusy = s.errBusy := rfl

@[simp] theorem loadwvNext_errLen (s : State) : (loadwvNext s).errLen = s.errLen := rfl

@[simp] theorem loadwvNext_errWr (s : State) : (loadwvNext s).errWr = s.errWr := rfl

@[simp] theorem loadwvNext_config (s : State) : (loadwvNext s).config = s.config := rfl

@[simp] theorem loadwvNext_inputs (s : State) : (loadwvNext s).inputs = s.inputs := rfl

@[simp] theorem loadwvNext_response (s : State) : (loadwvNext s).response = s.response := rfl

@[simp] theorem loadwvNext_draws (s : State) : (loadwvNext s).draws = s.draws := rfl

/-! ### roundNext -/

@[simp] theorem roundNext_h (s : State) : (roundNext s).h = s.h := by unfold roundNext; split <;> rfl

@[simp] theorem roundNext_wv (s : State) : (roundNext s).wv = s.wv := by unfold roundNext; split <;> rfl

@[simp] theorem roundNext_w (s : State) : (roundNext s).w = s.w := by unfold roundNext; split <;> rfl

@[simp] theorem roundNext_hex (s : State) : (roundNext s).hex = s.hex := by unfold roundNext; split <;> rfl

@[simp] theorem roundNext_msg (s : State) : (roundNext s).msg = s.msg := by unfold roundNext; split <;> rfl

@[simp] theorem roundNext_len (s : State) : (roundNext s).len = s.len := by unfold roundNext; split <;> rfl

@[simp] theorem roundNext_nblk (s : State) : (roundNext s).nblk = s.nblk := by unfold roundNext; split <;> rfl

@[simp] theorem roundNext_blkCnt (s : State) : (roundNext s).blkCnt = s.blkCnt := by unfold roundNext; split <;> rfl

@[simp] theorem roundNext_phase (s : State) :
    (roundNext s).phase = (if s.seqStep < 63#6 then s.phase else .fold) := by unfold roundNext; split <;> rfl

@[simp] theorem roundNext_seqStep (s : State) :
    (roundNext s).seqStep = (if s.seqStep < 63#6 then s.seqStep + 1#6 else 0#6) := by unfold roundNext; split <;> rfl

@[simp] theorem roundNext_busy (s : State) : (roundNext s).busy = s.busy := by unfold roundNext; split <;> rfl

@[simp] theorem roundNext_done (s : State) : (roundNext s).done = s.done := by unfold roundNext; split <;> rfl

@[simp] theorem roundNext_errCmd (s : State) : (roundNext s).errCmd = s.errCmd := by unfold roundNext; split <;> rfl

@[simp] theorem roundNext_errBusy (s : State) :
    (roundNext s).errBusy = s.errBusy := by unfold roundNext; split <;> rfl

@[simp] theorem roundNext_errLen (s : State) : (roundNext s).errLen = s.errLen := by unfold roundNext; split <;> rfl

@[simp] theorem roundNext_errWr (s : State) : (roundNext s).errWr = s.errWr := by unfold roundNext; split <;> rfl

@[simp] theorem roundNext_config (s : State) : (roundNext s).config = s.config := by unfold roundNext; split <;> rfl

@[simp] theorem roundNext_inputs (s : State) : (roundNext s).inputs = s.inputs := by unfold roundNext; split <;> rfl

@[simp] theorem roundNext_response (s : State) :
    (roundNext s).response = s.response := by unfold roundNext; split <;> rfl

@[simp] theorem roundNext_draws (s : State) : (roundNext s).draws = s.draws := by unfold roundNext; split <;> rfl

/-! ### foldNext -/

@[simp] theorem foldNext_h (s : State) : (foldNext s).h = s.h := rfl

@[simp] theorem foldNext_wv (s : State) : (foldNext s).wv = s.wv := rfl

@[simp] theorem foldNext_w (s : State) : (foldNext s).w = s.w := rfl

@[simp] theorem foldNext_hex (s : State) : (foldNext s).hex = s.hex := rfl

@[simp] theorem foldNext_msg (s : State) : (foldNext s).msg = s.msg := rfl

@[simp] theorem foldNext_len (s : State) : (foldNext s).len = s.len := rfl

@[simp] theorem foldNext_nblk (s : State) : (foldNext s).nblk = s.nblk := rfl

@[simp] theorem foldNext_blkCnt (s : State) : (foldNext s).blkCnt = s.blkCnt + 1#32 := rfl

@[simp] theorem foldNext_phase (s : State) :
    (foldNext s).phase = (if s.blkCnt + 1#32 = s.nblk then .format else .sched) := rfl

@[simp] theorem foldNext_seqStep (s : State) : (foldNext s).seqStep = 0#6 := rfl

@[simp] theorem foldNext_busy (s : State) : (foldNext s).busy = s.busy := rfl

@[simp] theorem foldNext_done (s : State) : (foldNext s).done = s.done := rfl

@[simp] theorem foldNext_errCmd (s : State) : (foldNext s).errCmd = s.errCmd := rfl

@[simp] theorem foldNext_errBusy (s : State) : (foldNext s).errBusy = s.errBusy := rfl

@[simp] theorem foldNext_errLen (s : State) : (foldNext s).errLen = s.errLen := rfl

@[simp] theorem foldNext_errWr (s : State) : (foldNext s).errWr = s.errWr := rfl

@[simp] theorem foldNext_config (s : State) : (foldNext s).config = s.config := rfl

@[simp] theorem foldNext_inputs (s : State) : (foldNext s).inputs = s.inputs := rfl

@[simp] theorem foldNext_response (s : State) : (foldNext s).response = s.response := rfl

@[simp] theorem foldNext_draws (s : State) : (foldNext s).draws = s.draws := rfl

/-! ### formatNext -/

@[simp] theorem formatNext_h (s : State) : (formatNext s).h = s.h := rfl

@[simp] theorem formatNext_wv (s : State) : (formatNext s).wv = s.wv := rfl

@[simp] theorem formatNext_w (s : State) : (formatNext s).w = s.w := rfl

@[simp] theorem formatNext_hex (s : State) : (formatNext s).hex = s.hex := rfl

@[simp] theorem formatNext_msg (s : State) : (formatNext s).msg = s.msg := rfl

@[simp] theorem formatNext_len (s : State) : (formatNext s).len = s.len := rfl

@[simp] theorem formatNext_nblk (s : State) : (formatNext s).nblk = s.nblk := rfl

@[simp] theorem formatNext_blkCnt (s : State) : (formatNext s).blkCnt = s.blkCnt := rfl

@[simp] theorem formatNext_phase (s : State) : (formatNext s).phase = .idle := rfl

@[simp] theorem formatNext_seqStep (s : State) : (formatNext s).seqStep = 0#6 := rfl

@[simp] theorem formatNext_busy (s : State) : (formatNext s).busy = false := rfl

@[simp] theorem formatNext_done (s : State) : (formatNext s).done = true := rfl

@[simp] theorem formatNext_errCmd (s : State) : (formatNext s).errCmd = s.errCmd := rfl

@[simp] theorem formatNext_errBusy (s : State) : (formatNext s).errBusy = s.errBusy := rfl

@[simp] theorem formatNext_errLen (s : State) : (formatNext s).errLen = s.errLen := rfl

@[simp] theorem formatNext_errWr (s : State) : (formatNext s).errWr = s.errWr := rfl

@[simp] theorem formatNext_config (s : State) : (formatNext s).config = s.config := rfl

@[simp] theorem formatNext_inputs (s : State) : (formatNext s).inputs = s.inputs := rfl

@[simp] theorem formatNext_response (s : State) : (formatNext s).response = s.response := rfl

@[simp] theorem formatNext_draws (s : State) : (formatNext s).draws = s.draws := rfl

/-! ### freshDigest -/

@[simp] theorem freshDigest_h (s : State) : (freshDigest s).h = ivRom := rfl

@[simp] theorem freshDigest_wv (s : State) : (freshDigest s).wv = s.wv := rfl

@[simp] theorem freshDigest_w (s : State) : (freshDigest s).w = s.w := rfl

@[simp] theorem freshDigest_hex (s : State) : (freshDigest s).hex = Vector.replicate 64 0x00#8 := rfl

@[simp] theorem freshDigest_msg (s : State) : (freshDigest s).msg = s.msg := rfl

@[simp] theorem freshDigest_len (s : State) : (freshDigest s).len = s.len := rfl

@[simp] theorem freshDigest_nblk (s : State) : (freshDigest s).nblk = s.nblk := rfl

@[simp] theorem freshDigest_blkCnt (s : State) : (freshDigest s).blkCnt = 0#32 := rfl

@[simp] theorem freshDigest_phase (s : State) : (freshDigest s).phase = s.phase := rfl

@[simp] theorem freshDigest_seqStep (s : State) : (freshDigest s).seqStep = s.seqStep := rfl

@[simp] theorem freshDigest_busy (s : State) : (freshDigest s).busy = s.busy := rfl

@[simp] theorem freshDigest_done (s : State) : (freshDigest s).done = false := rfl

@[simp] theorem freshDigest_errCmd (s : State) : (freshDigest s).errCmd = s.errCmd := rfl

@[simp] theorem freshDigest_errBusy (s : State) : (freshDigest s).errBusy = s.errBusy := rfl

@[simp] theorem freshDigest_errLen (s : State) : (freshDigest s).errLen = s.errLen := rfl

@[simp] theorem freshDigest_errWr (s : State) : (freshDigest s).errWr = s.errWr := rfl

@[simp] theorem freshDigest_config (s : State) : (freshDigest s).config = s.config := rfl

@[simp] theorem freshDigest_inputs (s : State) : (freshDigest s).inputs = s.inputs := rfl

@[simp] theorem freshDigest_response (s : State) : (freshDigest s).response = s.response := rfl

@[simp] theorem freshDigest_draws (s : State) : (freshDigest s).draws = s.draws := rfl

/-! ### initExec -/

@[simp] theorem initExec_h (s : State) : (initExec s).h = ivRom := rfl

@[simp] theorem initExec_wv (s : State) : (initExec s).wv = s.wv := rfl

@[simp] theorem initExec_w (s : State) : (initExec s).w = s.w := rfl

@[simp] theorem initExec_hex (s : State) : (initExec s).hex = Vector.replicate 64 0x00#8 := rfl

@[simp] theorem initExec_msg (s : State) : (initExec s).msg = s.msg := rfl

@[simp] theorem initExec_len (s : State) : (initExec s).len = s.len := rfl

@[simp] theorem initExec_nblk (s : State) : (initExec s).nblk = 0#32 := rfl

@[simp] theorem initExec_blkCnt (s : State) : (initExec s).blkCnt = 0#32 := rfl

@[simp] theorem initExec_phase (s : State) : (initExec s).phase = .idle := rfl

@[simp] theorem initExec_seqStep (s : State) : (initExec s).seqStep = 0#6 := rfl

@[simp] theorem initExec_busy (s : State) : (initExec s).busy = s.busy := rfl

@[simp] theorem initExec_done (s : State) : (initExec s).done = false := rfl

@[simp] theorem initExec_errCmd (s : State) : (initExec s).errCmd = s.errCmd := rfl

@[simp] theorem initExec_errBusy (s : State) : (initExec s).errBusy = s.errBusy := rfl

@[simp] theorem initExec_errLen (s : State) : (initExec s).errLen = s.errLen := rfl

@[simp] theorem initExec_errWr (s : State) : (initExec s).errWr = s.errWr := rfl

@[simp] theorem initExec_config (s : State) : (initExec s).config = s.config := rfl

@[simp] theorem initExec_inputs (s : State) : (initExec s).inputs = s.inputs := rfl

@[simp] theorem initExec_response (s : State) : (initExec s).response = s.response := rfl

@[simp] theorem initExec_draws (s : State) : (initExec s).draws = s.draws := rfl

/-! ### hashAccept -/

@[simp] theorem hashAccept_h (s : State) : (hashAccept s).h = ivRom := rfl

@[simp] theorem hashAccept_wv (s : State) : (hashAccept s).wv = s.wv := rfl

@[simp] theorem hashAccept_w (s : State) : (hashAccept s).w = s.w := rfl

@[simp] theorem hashAccept_hex (s : State) : (hashAccept s).hex = Vector.replicate 64 0x00#8 := rfl

@[simp] theorem hashAccept_msg (s : State) : (hashAccept s).msg = s.msg := rfl

@[simp] theorem hashAccept_len (s : State) : (hashAccept s).len = s.len := rfl

@[simp] theorem hashAccept_nblk (s : State) : (hashAccept s).nblk = BitVec.ofNat 32 (nblkOf s.len) := rfl

@[simp] theorem hashAccept_blkCnt (s : State) : (hashAccept s).blkCnt = 0#32 := rfl

@[simp] theorem hashAccept_phase (s : State) : (hashAccept s).phase = .sched := rfl

@[simp] theorem hashAccept_seqStep (s : State) : (hashAccept s).seqStep = 0#6 := rfl

@[simp] theorem hashAccept_busy (s : State) : (hashAccept s).busy = true := rfl

@[simp] theorem hashAccept_done (s : State) : (hashAccept s).done = false := rfl

@[simp] theorem hashAccept_errCmd (s : State) : (hashAccept s).errCmd = s.errCmd := rfl

@[simp] theorem hashAccept_errBusy (s : State) : (hashAccept s).errBusy = s.errBusy := rfl

@[simp] theorem hashAccept_errLen (s : State) : (hashAccept s).errLen = s.errLen := rfl

@[simp] theorem hashAccept_errWr (s : State) : (hashAccept s).errWr = s.errWr := rfl

@[simp] theorem hashAccept_config (s : State) : (hashAccept s).config = s.config := rfl

@[simp] theorem hashAccept_inputs (s : State) : (hashAccept s).inputs = s.inputs := rfl

@[simp] theorem hashAccept_response (s : State) : (hashAccept s).response = s.response := rfl

@[simp] theorem hashAccept_draws (s : State) : (hashAccept s).draws = s.draws := rfl

/-! ### respond -/

@[simp] theorem respond_h (s : State) (r : Response) : (respond s r).h = s.h := rfl

@[simp] theorem respond_wv (s : State) (r : Response) : (respond s r).wv = s.wv := rfl

@[simp] theorem respond_w (s : State) (r : Response) : (respond s r).w = s.w := rfl

@[simp] theorem respond_hex (s : State) (r : Response) : (respond s r).hex = s.hex := rfl

@[simp] theorem respond_msg (s : State) (r : Response) : (respond s r).msg = s.msg := rfl

@[simp] theorem respond_len (s : State) (r : Response) : (respond s r).len = s.len := rfl

@[simp] theorem respond_nblk (s : State) (r : Response) : (respond s r).nblk = s.nblk := rfl

@[simp] theorem respond_blkCnt (s : State) (r : Response) : (respond s r).blkCnt = s.blkCnt := rfl

@[simp] theorem respond_phase (s : State) (r : Response) : (respond s r).phase = s.phase := rfl

@[simp] theorem respond_seqStep (s : State) (r : Response) : (respond s r).seqStep = s.seqStep := rfl

@[simp] theorem respond_busy (s : State) (r : Response) : (respond s r).busy = s.busy := rfl

@[simp] theorem respond_done (s : State) (r : Response) : (respond s r).done = s.done := rfl

@[simp] theorem respond_errCmd (s : State) (r : Response) : (respond s r).errCmd = s.errCmd := rfl

@[simp] theorem respond_errBusy (s : State) (r : Response) : (respond s r).errBusy = s.errBusy := rfl

@[simp] theorem respond_errLen (s : State) (r : Response) : (respond s r).errLen = s.errLen := rfl

@[simp] theorem respond_errWr (s : State) (r : Response) : (respond s r).errWr = s.errWr := rfl

@[simp] theorem respond_config (s : State) (r : Response) : (respond s r).config = s.config := rfl

@[simp] theorem respond_inputs (s : State) (r : Response) : (respond s r).inputs = s.inputs := rfl

@[simp] theorem respond_response (s : State) (r : Response) : (respond s r).response = some r := rfl

@[simp] theorem respond_draws (s : State) (r : Response) : (respond s r).draws = s.draws := rfl

/-! ### setLenLo -/

@[simp] theorem setLenLo_h (s : State) (d : Word) (b : Strobe) : (setLenLo s d b).h = s.h := rfl

@[simp] theorem setLenLo_wv (s : State) (d : Word) (b : Strobe) : (setLenLo s d b).wv = s.wv := rfl

@[simp] theorem setLenLo_w (s : State) (d : Word) (b : Strobe) : (setLenLo s d b).w = s.w := rfl

@[simp] theorem setLenLo_hex (s : State) (d : Word) (b : Strobe) : (setLenLo s d b).hex = s.hex := rfl

@[simp] theorem setLenLo_msg (s : State) (d : Word) (b : Strobe) : (setLenLo s d b).msg = s.msg := rfl

@[simp] theorem setLenLo_len (s : State) (d : Word) (b : Strobe) :
    (setLenLo s d b).len = s.len.extractLsb' 32 32 ++ merge (s.len.extractLsb' 0 32) d b := rfl

@[simp] theorem setLenLo_nblk (s : State) (d : Word) (b : Strobe) : (setLenLo s d b).nblk = s.nblk := rfl

@[simp] theorem setLenLo_blkCnt (s : State) (d : Word) (b : Strobe) : (setLenLo s d b).blkCnt = s.blkCnt := rfl

@[simp] theorem setLenLo_phase (s : State) (d : Word) (b : Strobe) : (setLenLo s d b).phase = s.phase := rfl

@[simp] theorem setLenLo_seqStep (s : State) (d : Word) (b : Strobe) : (setLenLo s d b).seqStep = s.seqStep := rfl

@[simp] theorem setLenLo_busy (s : State) (d : Word) (b : Strobe) : (setLenLo s d b).busy = s.busy := rfl

@[simp] theorem setLenLo_done (s : State) (d : Word) (b : Strobe) : (setLenLo s d b).done = s.done := rfl

@[simp] theorem setLenLo_errCmd (s : State) (d : Word) (b : Strobe) : (setLenLo s d b).errCmd = s.errCmd := rfl

@[simp] theorem setLenLo_errBusy (s : State) (d : Word) (b : Strobe) : (setLenLo s d b).errBusy = s.errBusy := rfl

@[simp] theorem setLenLo_errLen (s : State) (d : Word) (b : Strobe) : (setLenLo s d b).errLen = s.errLen := rfl

@[simp] theorem setLenLo_errWr (s : State) (d : Word) (b : Strobe) : (setLenLo s d b).errWr = s.errWr := rfl

@[simp] theorem setLenLo_config (s : State) (d : Word) (b : Strobe) : (setLenLo s d b).config = s.config := rfl

@[simp] theorem setLenLo_inputs (s : State) (d : Word) (b : Strobe) : (setLenLo s d b).inputs = s.inputs := rfl

@[simp] theorem setLenLo_response (s : State) (d : Word) (b : Strobe) :
    (setLenLo s d b).response = s.response := rfl

@[simp] theorem setLenLo_draws (s : State) (d : Word) (b : Strobe) : (setLenLo s d b).draws = s.draws := rfl

/-! ### setLenHi -/

@[simp] theorem setLenHi_h (s : State) (d : Word) (b : Strobe) : (setLenHi s d b).h = s.h := rfl

@[simp] theorem setLenHi_wv (s : State) (d : Word) (b : Strobe) : (setLenHi s d b).wv = s.wv := rfl

@[simp] theorem setLenHi_w (s : State) (d : Word) (b : Strobe) : (setLenHi s d b).w = s.w := rfl

@[simp] theorem setLenHi_hex (s : State) (d : Word) (b : Strobe) : (setLenHi s d b).hex = s.hex := rfl

@[simp] theorem setLenHi_msg (s : State) (d : Word) (b : Strobe) : (setLenHi s d b).msg = s.msg := rfl

@[simp] theorem setLenHi_len (s : State) (d : Word) (b : Strobe) :
    (setLenHi s d b).len = merge (s.len.extractLsb' 32 32) d b ++ s.len.extractLsb' 0 32 := rfl

@[simp] theorem setLenHi_nblk (s : State) (d : Word) (b : Strobe) : (setLenHi s d b).nblk = s.nblk := rfl

@[simp] theorem setLenHi_blkCnt (s : State) (d : Word) (b : Strobe) : (setLenHi s d b).blkCnt = s.blkCnt := rfl

@[simp] theorem setLenHi_phase (s : State) (d : Word) (b : Strobe) : (setLenHi s d b).phase = s.phase := rfl

@[simp] theorem setLenHi_seqStep (s : State) (d : Word) (b : Strobe) : (setLenHi s d b).seqStep = s.seqStep := rfl

@[simp] theorem setLenHi_busy (s : State) (d : Word) (b : Strobe) : (setLenHi s d b).busy = s.busy := rfl

@[simp] theorem setLenHi_done (s : State) (d : Word) (b : Strobe) : (setLenHi s d b).done = s.done := rfl

@[simp] theorem setLenHi_errCmd (s : State) (d : Word) (b : Strobe) : (setLenHi s d b).errCmd = s.errCmd := rfl

@[simp] theorem setLenHi_errBusy (s : State) (d : Word) (b : Strobe) : (setLenHi s d b).errBusy = s.errBusy := rfl

@[simp] theorem setLenHi_errLen (s : State) (d : Word) (b : Strobe) : (setLenHi s d b).errLen = s.errLen := rfl

@[simp] theorem setLenHi_errWr (s : State) (d : Word) (b : Strobe) : (setLenHi s d b).errWr = s.errWr := rfl

@[simp] theorem setLenHi_config (s : State) (d : Word) (b : Strobe) : (setLenHi s d b).config = s.config := rfl

@[simp] theorem setLenHi_inputs (s : State) (d : Word) (b : Strobe) : (setLenHi s d b).inputs = s.inputs := rfl

@[simp] theorem setLenHi_response (s : State) (d : Word) (b : Strobe) :
    (setLenHi s d b).response = s.response := rfl

@[simp] theorem setLenHi_draws (s : State) (d : Word) (b : Strobe) : (setLenHi s d b).draws = s.draws := rfl

/-! ### resetRegs -/

@[simp] theorem resetRegs_h (s : State) : (resetRegs s).h = Vector.replicate 8 0#32 := rfl

@[simp] theorem resetRegs_wv (s : State) : (resetRegs s).wv = Vector.replicate 8 0#32 := rfl

@[simp] theorem resetRegs_w (s : State) : (resetRegs s).w = Vector.replicate 64 0#32 := rfl

@[simp] theorem resetRegs_hex (s : State) : (resetRegs s).hex = Vector.replicate 64 0#8 := rfl

@[simp] theorem resetRegs_msg (s : State) : (resetRegs s).msg = s.msg := rfl

@[simp] theorem resetRegs_len (s : State) : (resetRegs s).len = 0#64 := rfl

@[simp] theorem resetRegs_nblk (s : State) : (resetRegs s).nblk = 0#32 := rfl

@[simp] theorem resetRegs_blkCnt (s : State) : (resetRegs s).blkCnt = 0#32 := rfl

@[simp] theorem resetRegs_phase (s : State) : (resetRegs s).phase = .idle := rfl

@[simp] theorem resetRegs_seqStep (s : State) : (resetRegs s).seqStep = 0#6 := rfl

@[simp] theorem resetRegs_busy (s : State) : (resetRegs s).busy = false := rfl

@[simp] theorem resetRegs_done (s : State) : (resetRegs s).done = false := rfl

@[simp] theorem resetRegs_errCmd (s : State) : (resetRegs s).errCmd = false := rfl

@[simp] theorem resetRegs_errBusy (s : State) : (resetRegs s).errBusy = false := rfl

@[simp] theorem resetRegs_errLen (s : State) : (resetRegs s).errLen = false := rfl

@[simp] theorem resetRegs_errWr (s : State) : (resetRegs s).errWr = false := rfl

@[simp] theorem resetRegs_config (s : State) : (resetRegs s).config = s.config := rfl

@[simp] theorem resetRegs_inputs (s : State) : (resetRegs s).inputs = s.inputs := rfl

@[simp] theorem resetRegs_response (s : State) : (resetRegs s).response = s.response := rfl

@[simp] theorem resetRegs_draws (s : State) : (resetRegs s).draws = s.draws := rfl

/-! ### resetStep -/

@[simp] theorem resetStep_h (s : State) (p : Option Txn) :
    (resetStep s p).h = Vector.replicate 8 0#32 := by cases p <;> rfl

@[simp] theorem resetStep_wv (s : State) (p : Option Txn) :
    (resetStep s p).wv = Vector.replicate 8 0#32 := by cases p <;> rfl

@[simp] theorem resetStep_w (s : State) (p : Option Txn) :
    (resetStep s p).w = Vector.replicate 64 0#32 := by cases p <;> rfl

@[simp] theorem resetStep_hex (s : State) (p : Option Txn) :
    (resetStep s p).hex = Vector.replicate 64 0#8 := by cases p <;> rfl

@[simp] theorem resetStep_msg (s : State) (p : Option Txn) :
    (resetStep s p).msg = s.msg := by cases p <;> rfl

@[simp] theorem resetStep_len (s : State) (p : Option Txn) :
    (resetStep s p).len = 0#64 := by cases p <;> rfl

@[simp] theorem resetStep_nblk (s : State) (p : Option Txn) :
    (resetStep s p).nblk = 0#32 := by cases p <;> rfl

@[simp] theorem resetStep_blkCnt (s : State) (p : Option Txn) :
    (resetStep s p).blkCnt = 0#32 := by cases p <;> rfl

@[simp] theorem resetStep_phase (s : State) (p : Option Txn) :
    (resetStep s p).phase = .idle := by cases p <;> rfl

@[simp] theorem resetStep_seqStep (s : State) (p : Option Txn) :
    (resetStep s p).seqStep = 0#6 := by cases p <;> rfl

@[simp] theorem resetStep_busy (s : State) (p : Option Txn) :
    (resetStep s p).busy = false := by cases p <;> rfl

@[simp] theorem resetStep_done (s : State) (p : Option Txn) :
    (resetStep s p).done = false := by cases p <;> rfl

@[simp] theorem resetStep_errCmd (s : State) (p : Option Txn) :
    (resetStep s p).errCmd = false := by cases p <;> rfl

@[simp] theorem resetStep_errBusy (s : State) (p : Option Txn) :
    (resetStep s p).errBusy = false := by cases p <;> rfl

@[simp] theorem resetStep_errLen (s : State) (p : Option Txn) :
    (resetStep s p).errLen = false := by cases p <;> rfl

@[simp] theorem resetStep_errWr (s : State) (p : Option Txn) :
    (resetStep s p).errWr = false := by cases p <;> rfl

@[simp] theorem resetStep_config (s : State) (p : Option Txn) :
    (resetStep s p).config = s.config := by cases p <;> rfl

@[simp] theorem resetStep_inputs (s : State) (p : Option Txn) :
    (resetStep s p).inputs = s.inputs := by cases p <;> rfl

/-- What a reset with a transaction presented answers. -/
@[simp] theorem resetStep_response_some (s : State) (x : Txn) :
    (resetStep s (some x)).response = some (resetResponse s.draws x) := rfl

@[simp] theorem resetStep_response_none (s : State) : (resetStep s none).response = s.response := rfl

@[simp] theorem resetStep_draws_some (s : State) (x : Txn) : (resetStep s (some x)).draws = s.draws + 1 := rfl

@[simp] theorem resetStep_draws_none (s : State) : (resetStep s none).draws = s.draws := rfl

@[simp] theorem resetResponse_read (n : Nat) (a : Word) : resetResponse n (.read a) = .read 0x00000000#32 false := rfl

/-- An aligned write presented with a reset is answered `err` = 0 (20_memory.md R61). -/
theorem resetResponse_write_aligned (n : Nat) {a d : Word} {b : Strobe} (h : (Txn.write a d b).aligned = true) :
    resetResponse n (.write a d b) = .write false := by simp [resetResponse, h]

/-! ### beginTurn -/

@[simp] theorem beginTurn_h (s : State) (r : List Input) : (beginTurn s r).h = s.h := rfl

@[simp] theorem beginTurn_wv (s : State) (r : List Input) : (beginTurn s r).wv = s.wv := rfl

@[simp] theorem beginTurn_w (s : State) (r : List Input) : (beginTurn s r).w = s.w := rfl

@[simp] theorem beginTurn_hex (s : State) (r : List Input) : (beginTurn s r).hex = s.hex := rfl

@[simp] theorem beginTurn_msg (s : State) (r : List Input) : (beginTurn s r).msg = s.msg := rfl

@[simp] theorem beginTurn_len (s : State) (r : List Input) : (beginTurn s r).len = s.len := rfl

@[simp] theorem beginTurn_nblk (s : State) (r : List Input) : (beginTurn s r).nblk = s.nblk := rfl

@[simp] theorem beginTurn_blkCnt (s : State) (r : List Input) : (beginTurn s r).blkCnt = s.blkCnt := rfl

@[simp] theorem beginTurn_phase (s : State) (r : List Input) : (beginTurn s r).phase = s.phase := rfl

@[simp] theorem beginTurn_seqStep (s : State) (r : List Input) : (beginTurn s r).seqStep = s.seqStep := rfl

@[simp] theorem beginTurn_busy (s : State) (r : List Input) : (beginTurn s r).busy = s.busy := rfl

@[simp] theorem beginTurn_done (s : State) (r : List Input) : (beginTurn s r).done = s.done := rfl

@[simp] theorem beginTurn_errCmd (s : State) (r : List Input) : (beginTurn s r).errCmd = s.errCmd := rfl

@[simp] theorem beginTurn_errBusy (s : State) (r : List Input) : (beginTurn s r).errBusy = s.errBusy := rfl

@[simp] theorem beginTurn_errLen (s : State) (r : List Input) : (beginTurn s r).errLen = s.errLen := rfl

@[simp] theorem beginTurn_errWr (s : State) (r : List Input) : (beginTurn s r).errWr = s.errWr := rfl

@[simp] theorem beginTurn_config (s : State) (r : List Input) : (beginTurn s r).config = s.config := rfl

@[simp] theorem beginTurn_inputs (s : State) (r : List Input) : (beginTurn s r).inputs = r := rfl

@[simp] theorem beginTurn_response (s : State) (r : List Input) : (beginTurn s r).response = none := rfl

@[simp] theorem beginTurn_draws (s : State) (r : List Input) : (beginTurn s r).draws = s.draws := rfl

/-! ### placeCommand -/

@[simp] theorem placeCommand_h (s : State) (d : Word) : (placeCommand s d).h = s.h := rfl

@[simp] theorem placeCommand_wv (s : State) (d : Word) : (placeCommand s d).wv = s.wv := rfl

@[simp] theorem placeCommand_w (s : State) (d : Word) : (placeCommand s d).w = s.w := rfl

@[simp] theorem placeCommand_hex (s : State) (d : Word) : (placeCommand s d).hex = s.hex := rfl

@[simp] theorem placeCommand_msg (s : State) (d : Word) : (placeCommand s d).msg = s.msg := rfl

@[simp] theorem placeCommand_len (s : State) (d : Word) : (placeCommand s d).len = s.len := rfl

@[simp] theorem placeCommand_nblk (s : State) (d : Word) : (placeCommand s d).nblk = s.nblk := rfl

@[simp] theorem placeCommand_blkCnt (s : State) (d : Word) : (placeCommand s d).blkCnt = s.blkCnt := rfl

@[simp] theorem placeCommand_phase (s : State) (d : Word) : (placeCommand s d).phase = s.phase := rfl

@[simp] theorem placeCommand_seqStep (s : State) (d : Word) : (placeCommand s d).seqStep = s.seqStep := rfl

@[simp] theorem placeCommand_busy (s : State) (d : Word) : (placeCommand s d).busy = s.busy := rfl

@[simp] theorem placeCommand_done (s : State) (d : Word) : (placeCommand s d).done = s.done := rfl

@[simp] theorem placeCommand_errCmd (s : State) (d : Word) : (placeCommand s d).errCmd = s.errCmd := rfl

@[simp] theorem placeCommand_errBusy (s : State) (d : Word) : (placeCommand s d).errBusy = s.errBusy := rfl

@[simp] theorem placeCommand_errLen (s : State) (d : Word) : (placeCommand s d).errLen = s.errLen := rfl

@[simp] theorem placeCommand_errWr (s : State) (d : Word) : (placeCommand s d).errWr = s.errWr := rfl

@[simp] theorem placeCommand_config (s : State) (d : Word) : (placeCommand s d).config = s.config := rfl

@[simp] theorem placeCommand_inputs (s : State) (d : Word) :
    (placeCommand s d).inputs = commandInput d :: s.inputs := rfl

@[simp] theorem placeCommand_response (s : State) (d : Word) : (placeCommand s d).response = s.response := rfl

@[simp] theorem placeCommand_draws (s : State) (d : Word) : (placeCommand s d).draws = s.draws := rfl

end Sys2Proof.Machine
end

