-- ==== Sys2Proof/Laws/Bus.lean ====
section
/-!
SUPPORT. The operands of a bus transaction, what a command and a transaction can do, and the decoder.
-/

namespace Sys2Proof

theorem Txn.aligned_iff (t : Txn) : t.aligned = true ↔ t.addr.toNat % 4 = 0 := by
  simp only [Txn.aligned, beq_iff_eq]
  constructor
  · intro h
    have := congrArg BitVec.toNat h
    simpa [BitVec.extractLsb'_toNat] using this
  · intro h
    apply BitVec.eq_of_toNat_eq
    simpa [BitVec.extractLsb'_toNat] using h

theorem decode_encode (i : Instr) : decode (encode i) = .ok i := by cases i <;> decide

/-- A word is its two fields (30_encoding.md R90). -/
theorem word_of_fields (d : Word) : d = rsvdField d ++ cmdField d := by
  apply BitVec.eq_of_getLsbD_eq
  intro n hn
  show d.getLsbD n = (rsvdField d ++ cmdField d : BitVec (28 + 4)).getLsbD n
  rw [BitVec.getLsbD_append]
  by_cases h : n < 4
  · simp [cmdField, h]
  · simp [rsvdField, h, show n - 4 < 28 by omega, show 4 + (n - 4) = n by omega]

/-- Each command is decoded from its own word only (30_encoding.md R93). -/
theorem encode_of_decode {d : Word} {i : Instr} (h : decode d = .ok i) : d = encode i := by
  have key : ∀ c, rsvdField d = 0#28 → cmdField d = c → d = 0#28 ++ c := by
    rintro c h1 rfl
    rw [← h1]; exact word_of_fields d
  unfold decode at h
  split_ifs at h with h1 h2 h3 h4 <;> simp at h <;> subst h
  · rw [key _ (by simpa using h1) h2]; rfl
  · rw [key _ (by simpa using h1) h3]; rfl
  · rw [key _ (by simpa using h1) h4]; rfl

theorem wordOfLanes_getLsbD (b0 b1 b2 b3 : Byte) (n : Nat) :
    (wordOfLanes b0 b1 b2 b3).getLsbD n =
      if n < 8 then b0.getLsbD n else if n - 8 < 8 then b1.getLsbD (n - 8)
      else if n - 16 < 8 then b2.getLsbD (n - 16) else b3.getLsbD (n - 24) := by
  show (b3 ++ b2 ++ b1 ++ b0 : BitVec (8 + 8 + 8 + 8)).getLsbD n = _
  rw [BitVec.getLsbD_append, BitVec.getLsbD_append, BitVec.getLsbD_append, Nat.sub_sub, Nat.sub_sub]

/-- Lane i of a word is its byte i. -/
theorem lane_wordOfLanes (b0 b1 b2 b3 : Byte) :
    lane (wordOfLanes b0 b1 b2 b3) 0 = b0 ∧ lane (wordOfLanes b0 b1 b2 b3) 1 = b1 ∧
    lane (wordOfLanes b0 b1 b2 b3) 2 = b2 ∧ lane (wordOfLanes b0 b1 b2 b3) 3 = b3 := by
  refine ⟨?_, ?_, ?_, ?_⟩ <;>
    (apply BitVec.eq_of_getLsbD_eq; intro n hn
     rw [lane, BitVec.getLsbD_extractLsb', wordOfLanes_getLsbD]
     simp only [hn, decide_true, Bool.true_and])
  · simp [hn]
  · rw [if_neg (by omega), if_pos (by omega)]; congr 1; omega
  · rw [if_neg (by omega), if_neg (by omega), if_pos (by omega)]; congr 1; omega
  · rw [if_neg (by omega), if_neg (by omega), if_neg (by omega)]; congr 1; omega

namespace Machine

theorem wmask_getLsbD (b : Strobe) (n : Nat) (hn : n < 32) : (wmask b).getLsbD n = b.getLsbD (n / 8) := by
  revert b n
  decide +kernel

theorem effective_getLsbD (d : Word) (b : Strobe) (n : Nat) :
    (effective d b).getLsbD n = (d.getLsbD n && b.getLsbD (n / 8)) := by
  unfold effective
  rw [BitVec.getLsbD_and]
  by_cases hn : n < 32
  · rw [wmask_getLsbD b n hn]
  · rw [BitVec.getLsbD_of_ge d n (by omega)]; simp

theorem merge_getLsbD (x d : Word) (b : Strobe) (n : Nat) (hn : n < 32) :
    (merge x d b).getLsbD n = if b.getLsbD (n / 8) = true then d.getLsbD n else x.getLsbD n := by
  unfold merge
  rw [BitVec.getLsbD_or, BitVec.getLsbD_and, BitVec.getLsbD_not, wmask_getLsbD b n hn, effective_getLsbD]
  by_cases h : b.getLsbD (n / 8) = true <;> simp [h, hn]

/-- The offset of a location that is one word. -/
theorem locAt_cases (cap addr : Word) :
    (addr = 0x00000004#32 ∧ locAt cap addr = .ctrl) ∨ (addr = 0x00000008#32 ∧ locAt cap addr = .status) ∨
    (addr = 0x0000000C#32 ∧ locAt cap addr = .lenLo) ∨ (addr = 0x00000010#32 ∧ locAt cap addr = .lenHi) ∨
    ((msgBase ≤ addr.toNat ∧ addr.toNat < msgBase + cap.toNat) ∧
      locAt cap addr = .msg (addr.toNat - msgBase)) ∨
    ((addr ≠ 0x00000004#32 ∧ addr ≠ 0x00000008#32 ∧ addr ≠ 0x0000000C#32 ∧ addr ≠ 0x00000010#32 ∧
        ¬ (msgBase ≤ addr.toNat ∧ addr.toNat < msgBase + cap.toNat)) ∧
      locAt cap addr ≠ .ctrl ∧ locAt cap addr ≠ .status ∧ locAt cap addr ≠ .lenLo ∧ locAt cap addr ≠ .lenHi ∧
        ∀ j, locAt cap addr ≠ .msg j) := by
  have e : ∀ n : Word, addr = n ↔ addr.toNat = n.toNat := fun n => BitVec.toNat_inj.symm
  have hm : msgBase = 65536 := rfl
  simp only [ne_eq, e, BitVec.toNat_ofNat]
  generalize hl : locAt cap addr = l
  unfold locAt at hl
  dsimp only at hl
  split at hl
  · unfold controlLoc at hl
    repeat' split at hl
    all_goals
      subst hl
      simp only [reduceCtorEq, and_false, and_true, false_or, not_false_eq_true, implies_true,
        Nat.reduceMod, Nat.reducePow]
      omega
  repeat' split at hl
  all_goals
    subst hl
    simp only [reduceCtorEq, and_false, and_true, false_or, not_false_eq_true, implies_true,
      Nat.reduceMod, Nat.reducePow]
    omega

/-- Everything a command can do: it is rejected, or it does nothing, or it is INIT or an accepted HASH. -/
theorem exec_cases (i : Instr) (s : State) :
    (s.busy = true ∧ exec i s = .next (reject s .busy)) ∨
    (s.busy = false ∧ i = .nop ∧ exec i s = .next s) ∨
    (s.busy = false ∧ i = .init ∧ exec i s = .next (initExec s)) ∨
    (s.busy = false ∧ i = .hash ∧ s.config.msgCap.toNat < s.len.toNat ∧ exec i s = .next (reject s .len)) ∨
    (s.busy = false ∧ i = .hash ∧ s.len.toNat ≤ s.config.msgCap.toNat ∧ exec i s = .next (hashAccept s)) := by
  cases hb : s.busy
  · cases i
    · simp [exec, execNop, unlessBusy, hb]
    · simp [exec, execInit, unlessBusy, hb]
    · by_cases h : s.config.msgCap.toNat < s.len.toNat
      · simp [exec, execHash, unlessBusy, hb, h]
      · simp [exec, execHash, unlessBusy, hb, h]; omega
  · cases i <;> simp [exec, execNop, execInit, execHash, unlessBusy, hb]

/-- Everything a write to CTRL with effective data `d` can do. -/
theorem command_cases (s : State) (d : Word) :
    (s.busy = true ∧ command s d = .next (reject s .busy)) ∨
    (s.busy = false ∧ (∃ r, decode d = .error r) ∧ command s d = .next (reject s .cmd)) ∨
    (s.busy = false ∧ d = encode .nop ∧ command s d = .next s) ∨
    (s.busy = false ∧ d = encode .init ∧ command s d = .next (initExec s)) ∨
    (s.busy = false ∧ d = encode .hash ∧ s.config.msgCap.toNat < s.len.toNat ∧
      command s d = .next (reject s .len)) ∨
    (s.busy = false ∧ d = encode .hash ∧ s.len.toNat ≤ s.config.msgCap.toNat ∧
      command s d = .next (hashAccept s)) := by
  unfold command
  cases hd : decode d with
  | error r =>
    cases hb : s.busy
    · exact .inr (.inl ⟨rfl, ⟨r, rfl⟩, by simp [execReserved, unlessBusy, hb]⟩)
    · exact .inl ⟨rfl, by simp [execReserved, unlessBusy, hb]⟩
  | ok i =>
    have := encode_of_decode hd
    rcases exec_cases i s with ⟨h1, h2⟩ | ⟨h1, rfl, h2⟩ | ⟨h1, rfl, h2⟩ | ⟨h1, rfl, h3, h2⟩ | ⟨h1, rfl, h3, h2⟩
    · exact .inl ⟨h1, h2⟩
    · exact .inr (.inr (.inl ⟨h1, this, h2⟩))
    · exact .inr (.inr (.inr (.inl ⟨h1, this, h2⟩)))
    · exact .inr (.inr (.inr (.inr (.inl ⟨h1, this, h3, h2⟩))))
    · exact .inr (.inr (.inr (.inr (.inr ⟨h1, this, h3, h2⟩))))

/-- Everything an aligned write with a strobe set can do. -/
theorem writeLoc_cases (s : State) (addr d : Word) (b : Strobe) :
    (addr = 0x00000004#32 ∧ writeLoc s d b (locAt s.config.msgCap addr) = command s (effective d b)) ∨
    (addr = 0x00000008#32 ∧
      writeLoc s d b (locAt s.config.msgCap addr) = .next (clearErrors s (effective d b))) ∨
    (addr = 0x0000000C#32 ∧
      writeLoc s d b (locAt s.config.msgCap addr) = storeUnlessBusy s (setLenLo s d b)) ∨
    (addr = 0x00000010#32 ∧
      writeLoc s d b (locAt s.config.msgCap addr) = storeUnlessBusy s (setLenHi s d b)) ∨
    ((msgBase ≤ addr.toNat ∧ addr.toNat < msgBase + s.config.msgCap.toNat) ∧
      writeLoc s d b (locAt s.config.msgCap addr) =
        storeUnlessBusy s (storeMsg s (addr.toNat - msgBase) d b)) ∨
    ((addr ≠ 0x00000004#32 ∧ addr ≠ 0x00000008#32 ∧ addr ≠ 0x0000000C#32 ∧ addr ≠ 0x00000010#32 ∧
        ¬ (msgBase ≤ addr.toNat ∧ addr.toNat < msgBase + s.config.msgCap.toNat)) ∧
      writeLoc s d b (locAt s.config.msgCap addr) = .next s) := by
  rcases locAt_cases s.config.msgCap addr with ⟨h, e⟩ | ⟨h, e⟩ | ⟨h, e⟩ | ⟨h, e⟩ | ⟨h, e⟩ | ⟨h, e⟩
  · exact .inl ⟨h, by rw [e]; rfl⟩
  · exact .inr (.inl ⟨h, by rw [e]; rfl⟩)
  · exact .inr (.inr (.inl ⟨h, by rw [e]; rfl⟩))
  · exact .inr (.inr (.inr (.inl ⟨h, by rw [e]; rfl⟩)))
  · exact .inr (.inr (.inr (.inr (.inl ⟨h, by rw [e]; rfl⟩))))
  · refine .inr (.inr (.inr (.inr (.inr ⟨h, ?_⟩))))
    obtain ⟨h1, h2, h3, h4, h5⟩ := e
    cases hl : locAt s.config.msgCap addr <;> first | rfl | exact absurd hl (by simp_all)

/-- Everything a write can do. -/
theorem busWrite_cases (s : State) (addr d : Word) (b : Strobe) :
    (addr.toNat % 4 ≠ 0 ∧ busWrite s addr d b = .next (respond s (.write true))) ∨
    (addr.toNat % 4 = 0 ∧ b = 0#4 ∧ busWrite s addr d b = .next (respond s (.write false))) ∨
    (addr.toNat % 4 = 0 ∧ b ≠ 0#4 ∧
      busWrite s addr d b = writeLoc (respond s (.write false)) d b (locAt s.config.msgCap addr)) := by
  unfold busWrite
  have ha := Txn.aligned_iff (.write addr d b)
  simp only [Txn.addr] at ha
  by_cases h : addr.toNat % 4 = 0
  · rw [if_pos (ha.2 h)]
    by_cases hb : b = 0#4 <;> simp [h, hb]
  · rw [if_neg (by rw [ha]; exact h)]
    exact .inl ⟨h, rfl⟩

/-- Everything a read can do: it answers, or it meets the model's fault for a message byte. -/
theorem busRead_cases (s : State) (addr : Word) :
    (addr.toNat % 4 ≠ 0 ∧ busRead s addr = .next (respond s (.read 0#32 true))) ∨
    (addr.toNat % 4 = 0 ∧ ∃ v, readLoc s (locAt s.config.msgCap addr) = .ok v ∧
      busRead s addr = .next (respond s (.read v false))) ∨
    (addr.toNat % 4 = 0 ∧ ∃ f, readLoc s (locAt s.config.msgCap addr) = .error f ∧ busRead s addr = .fault f) := by
  unfold busRead
  have ha := Txn.aligned_iff (.read addr)
  simp only [Txn.addr] at ha
  by_cases h : addr.toNat % 4 = 0
  · rw [if_pos (ha.2 h)]
    cases hr : readLoc s (locAt s.config.msgCap addr) <;> simp [h]
  · rw [if_neg (by rw [ha]; exact h)]
    exact .inl ⟨h, rfl⟩

/-- A read faults at a message offset only, and only where one of its four bytes cannot be read. -/
theorem readLoc_error {s : State} {l : Loc} {f : Fault} (h : readLoc s l = .error f) :
    ∃ j i, l = .msg j ∧ i < 4 ∧ memRead s (j + i) = .error f := by
  cases l <;> simp [readLoc] at h
  rename_i j
  simp only [msgWord] at h
  cases h0 : memRead s j with
  | error e => simp [h0, bind, Except.bind] at h; exact ⟨j, 0, rfl, by omega, by simp [h0, h]⟩
  | ok b0 =>
  cases h1 : memRead s (j + 1) with
  | error e => simp [h0, h1, bind, Except.bind] at h; exact ⟨j, 1, rfl, by omega, by simp [h1, h]⟩
  | ok b1 =>
  cases h2 : memRead s (j + 2) with
  | error e => simp [h0, h1, h2, bind, Except.bind] at h; exact ⟨j, 2, rfl, by omega, by simp [h2, h]⟩
  | ok b2 =>
  cases h3 : memRead s (j + 3) with
  | error e => simp [h0, h1, h2, h3, bind, Except.bind] at h; exact ⟨j, 3, rfl, by omega, by simp [h3, h]⟩
  | ok b3 => simp [h0, h1, h2, h3, bind, Except.bind, pure, Except.pure] at h

/-- A read at an aligned offset answers what the location reads as. -/
theorem busRead_of {s : State} {a v : Word} (h : a.toNat % 4 = 0) (hv : readLoc s (locAt s.config.msgCap a) = .ok v) :
    transact s (.read a) = .next (respond s (.read v false)) := by
  rcases busRead_cases s a with ⟨h', _⟩ | ⟨_, v', hv', e⟩ | ⟨_, f, hf, e⟩
  · exact absurd h h'
  · rw [hv] at hv'; cases hv'; exact e
  · rw [hv] at hf; cases hf

/-- A write at an aligned offset with a strobe set does what the location does with it. -/
theorem busWrite_of {s : State} {a d : Word} {b : Strobe} (h : a.toNat % 4 = 0) (hb : b ≠ 0#4) :
    transact s (.write a d b) = writeLoc (respond s (.write false)) d b (locAt s.config.msgCap a) := by
  rcases busWrite_cases s a d b with ⟨h', _⟩ | ⟨_, h', _⟩ | ⟨_, _, e⟩
  · exact absurd h h'
  · exact absurd h' hb
  · exact e

/-- A write to CTRL with a strobe set is the command of its effective data. -/
theorem ctrlWrite_of {s : State} {d : Word} {b : Strobe} (hb : b ≠ 0#4) :
    transact s (.write 0x00000004#32 d b) = command (respond s (.write false)) (effective d b) := busWrite_of rfl hb

/-- The host's write of a command is that command's meaning. -/
theorem issue_eq (s : State) (i : Instr) :
    transact s (.write 0x00000004#32 (encode i) 0b1111#4) = exec i (respond s (.write false)) := by
  rw [ctrlWrite_of (by decide), show effective (encode i) 0b1111#4 = encode i by cases i <;> decide]
  unfold command
  rw [decode_encode]

theorem exec_hash_busy {s : State} (h : s.busy = true) : exec .hash s = .next (reject s .busy) := by
  simp [exec, execHash, unlessBusy, h]

theorem exec_hash_accept {s : State} (h : s.busy = false) (hl : s.len.toNat ≤ s.config.msgCap.toNat) :
    exec .hash s = .next (hashAccept s) := by
  simp [exec, execHash, unlessBusy, h, Nat.not_lt.2 hl]

end Machine

end Sys2Proof
end

