-- ==== Sys2Proof/Laws/Document.lean ====
section
/-!
SUPPORT. The document's algorithm as the claims use it: the bytes of the padded message, the schedule, and its
counterparts in the registers.
-/

namespace Sys2Proof.Document

open Sys2Proof.Machine

theorem bigEndian64_length (x : DWord) : (bigEndian64 x).length = 8 := by simp [bigEndian64]

theorem padMessage_length (m : List Byte) : (padMessage m).length = 64 * ((m.length + 72) / 64) := by
  simp only [padMessage, List.length_append, List.length_cons, List.length_replicate, bigEndian64_length, zeroCount]
  omega

/-- Byte j of the padded message. -/
theorem padMessage_getD (m : List Byte) (j : Nat) (hj : j < (padMessage m).length) :
    (padMessage m).getD j 0#8 =
      if j < m.length then m.getD j 0#8
      else if j = m.length then 0x80#8
      else if (padMessage m).length - 8 ≤ j then
        (BitVec.ofNat 64 (8 * m.length)).extractLsb' (8 * ((padMessage m).length - 1 - j)) 8
      else 0x00#8 := by
  have hlen := padMessage_length m
  have hz : m.length + 9 + zeroCount m.length = (padMessage m).length := by simp only [hlen, zeroCount]; omega
  clear hlen
  revert hj hz
  generalize (padMessage m).length = p
  intro hj hz
  unfold padMessage
  simp only [List.getD_eq_getElem?_getD]
  by_cases h1 : j < m.length
  · rw [if_pos h1, List.getElem?_append_left h1]
  · rw [if_neg h1, List.getElem?_append_right (by omega)]
    by_cases h2 : j = m.length
    · subst h2; simp
    · rw [if_neg h2]
      obtain ⟨k, rfl⟩ : ∃ k, j = m.length + 1 + k := ⟨j - m.length - 1, by omega⟩
      rw [show m.length + 1 + k - m.length = k + 1 by omega, List.getElem?_cons_succ]
      by_cases h3 : p - 8 ≤ m.length + 1 + k
      · rw [if_pos h3, List.getElem?_append_right (by simp; omega), List.length_replicate]
        have : k - zeroCount m.length < 8 := by omega
        simp only [bigEndian64, List.getElem?_map, List.getElem?_range this, Option.map_some, Option.getD_some]
        congr 1
        omega
      · rw [if_neg h3, List.getElem?_append_left (by simp; omega), List.getElem?_replicate, if_pos (by omega)]
        rfl

theorem block_getD (bytes : List Byte) (b i : Nat) (hi : i < 64) :
    (block bytes b).getD i 0#8 = bytes.getD (64 * b + i) 0#8 := by
  simp [block, List.getD_eq_getElem?_getD, hi, List.getElem?_drop]

theorem schedulePrefix_length (blk : List Byte) (n : Nat) : (schedulePrefix blk n).length = n := by
  induction n with
  | zero => rfl
  | succ n ih => simp [schedulePrefix, ih]

theorem schedulePrefix_succ (blk : List Byte) (n : Nat) :
    schedulePrefix blk (n + 1) =
      schedulePrefix blk n ++ [if n < 16 then bigEndianWord blk (4 * n) else nextWord (schedulePrefix blk n)] := rfl

theorem expand_length (blk : List Byte) : (expand blk).length = 64 := schedulePrefix_length blk 64

/-- Writing schedule word t extends the words before it by one. -/
theorem toList_set_take (w : Vector Word 64) (t : Nat) (ht : t < 64) (x : Word) :
    (w.set t x ht).toList.take (t + 1) = w.toList.take t ++ [x] := by
  apply List.ext_getElem?
  intro i
  simp only [List.getElem?_take, List.getElem?_append, Vector.toList_set, List.getElem?_set, List.length_take,
    Vector.length_toList, List.getElem?_singleton]
  rcases lt_trichotomy i t with h | h | h
  · simp [show i < t + 1 by omega, h, show i < 64 by omega, show t ≠ i by omega]
  · subst h; simp [ht, Nat.min_eq_left (Nat.le_of_lt ht)]
  · simp [show ¬ i < t + 1 by omega, show ¬ i < t by omega, show ¬ i - min t 64 = 0 by omega]

/-- A schedule register below n holds that word of the schedule. -/
theorem wAt_eq {s : State} {blk : List Byte} {n : Nat} (h : s.w.toList.take n = schedulePrefix blk n) {t : BitVec 6}
    (ht : t.toNat < n) : wAt s t = (schedulePrefix blk n).getD t.toNat 0#32 := by
  rw [← h]
  simp [wAt, List.getD_eq_getElem?_getD, ht, t.isLt]

theorem ofState_roundWords (v : Vector Word 8) (k w : Word) :
    Vars.ofState (roundWords v k w) = oneRound (Vars.ofState v) k w := rfl

theorem foldWords_eq (h v : Vector Word 8) : foldWords h v = addBack h (Vars.ofState v) := by
  apply Vector.ext
  intro i hi
  have : i = 0 ∨ i = 1 ∨ i = 2 ∨ i = 3 ∨ i = 4 ∨ i = 5 ∨ i = 6 ∨ i = 7 := by omega
  rcases this with rfl | rfl | rfl | rfl | rfl | rfl | rfl | rfl <;> simp [foldWords, addBack, add32, Vars.ofState]

theorem ofState_injective {v w : Vector Word 8} (h : Vars.ofState v = Vars.ofState w) : v = w := by
  apply Vector.ext
  intro i hi
  simp only [Vars.ofState, Vars.mk.injEq] at h
  have : i = 0 ∨ i = 1 ∨ i = 2 ∨ i = 3 ∨ i = 4 ∨ i = 5 ∨ i = 6 ∨ i = 7 := by omega
  rcases this with rfl | rfl | rfl | rfl | rfl | rfl | rfl | rfl <;> simp_all

/-- Sixty-four values by word and by nibble are the words' values in turn. -/
theorem ofFn_flatMap (f : Word → Nat → Byte) (h : Vector Word 8) :
    (Vector.ofFn fun j : Fin 64 => f (h[j.val / 8]'(by omega)) (j.val % 8)).toList =
      h.toList.flatMap fun x => (List.range 8).map (f x) := by
  rw [Vector.toList_ofFn, List.flatMap_def]
  refine (List.ofFn_mul (m := 8) (n := 8) fun j : Fin (8 * 8) => f (h[j.val / 8]'(by omega)) (j.val % 8)).trans ?_
  congr 1
  apply List.ext_getElem
  · simp only [List.length_ofFn, List.length_map, Vector.length_toList]
  · intro i h1 h2
    simp only [List.length_ofFn] at h1
    apply List.ext_getElem
    · simp only [List.getElem_ofFn, List.length_ofFn, List.getElem_map, List.length_map, List.length_range]
    · intro j h3 h4
      simp only [List.getElem_ofFn, List.length_ofFn] at h3
      simp only [List.getElem_ofFn, List.getElem_map, List.getElem_range, Vector.getElem_toList,
        show (i * 8 + j) / 8 = i by omega, show (i * 8 + j) % 8 = j by omega]

/-- HEX as FORMAT writes it is the document's formatted state. -/
theorem hexDigits_format (h : Vector Word 8) : (hexDigits h).toList = format h := by
  unfold hexDigits
  rw [ofFn_flatMap fun x m => hexChar (nibble x m)]
  refine congrArg (fun g => List.flatMap g h.toList) (funext fun x => ?_)
  apply List.map_congr_left
  intro m hm
  have := List.mem_range.1 hm
  show hexChar (nibble x m) = _
  unfold nibble
  rw [show 28 - 4 * m = 4 * (7 - m) by omega]

end Sys2Proof.Document

namespace Sys2Proof.Safety

open Sys2Proof.Machine

theorem message_length (s : State) : (message s).length = s.len.toNat := by simp [message]

theorem message_congr {s t : State} (h : t.msg = s.msg) (hl : t.len = s.len) : message t = message s := by
  unfold message; rw [h, hl]

end Sys2Proof.Safety
end

