-- ==== Sys2Proof/Laws/Flags.lean ====
section
/-! SUPPORT. The two packed registers, STATUS and SEQ, bit by bit. -/

namespace Sys2Proof.Machine

theorem statusWord_getLsbD (s : State) (n : Nat) :
    (statusWord s).getLsbD n =
      if n = 0 then s.busy else if n = 1 then s.done else if n = 8 then s.errCmd else if n = 9 then s.errBusy
      else if n = 10 then s.errLen else if n = 11 then s.errWr else false := by
  by_cases hn : n < 32
  · have key : ∀ (a b c d e f : Bool) (n : Fin 32),
        ((BitVec.ofBool a ++ BitVec.ofBool b ++ BitVec.ofBool c ++ BitVec.ofBool d ++ 0#6 ++ BitVec.ofBool e ++
          BitVec.ofBool f : BitVec 12).setWidth 32).getLsbD n.val =
        if n.val = 0 then f else if n.val = 1 then e else if n.val = 8 then d else if n.val = 9 then c
        else if n.val = 10 then b else if n.val = 11 then a else false := by decide +kernel
    exact key _ _ _ _ _ _ ⟨n, hn⟩
  · rw [BitVec.getLsbD_of_ge _ n (by omega)]
    repeat rw [if_neg (by omega)]

theorem seqWord_getLsbD (s : State) (n : Nat) :
    (seqWord s).getLsbD n =
      if n < 3 then s.phase.code.getLsbD n else if 8 ≤ n then s.seqStep.getLsbD (n - 8) else false := by
  by_cases hn : n < 32
  · have key : ∀ (a : BitVec 6) (b : BitVec 3) (n : Fin 32),
        ((a ++ 0#5 ++ b : BitVec 14).setWidth 32).getLsbD n.val =
        if n.val < 3 then b.getLsbD n.val else if 8 ≤ n.val then a.getLsbD (n.val - 8) else false := by
      intro a b n
      rw [BitVec.getLsbD_setWidth, BitVec.getLsbD_append]
      by_cases h : n.val < 3
      · simp [h]
      · simp only [h, if_false]
        rw [BitVec.getLsbD_append]
        by_cases h8 : 8 ≤ n.val
        · simp [h8, show ¬ n.val - 3 < 5 by omega, show n.val - 3 - 5 = n.val - 8 by omega]
        · simp [h8, show n.val - 3 < 5 by omega]
    exact key _ _ ⟨n, hn⟩
  · rw [BitVec.getLsbD_of_ge _ n (by omega), if_neg (by omega), if_pos (by omega),
      BitVec.getLsbD_of_ge _ _ (by omega)]

end Sys2Proof.Machine
end

