-- ==== Sys2Proof/Laws/Memory.lean ====
section
/-!
SUPPORT. The message memory: reading after writing, and that every memory operation keeps the canonical form.
-/

namespace Sys2Proof.Machine

theorem Memory.read_write (m : Memory) (a : Nat) (x : Byte) (b : Nat) :
    (m.write a x).read b = if a = b then some x else m.read b := by
  induction m with
  | nil => simp [Memory.write, Memory.read]
  | cons c m ih =>
    obtain ⟨d, y⟩ := c
    simp only [Memory.write]
    split_ifs with h1 h2 h3 h4 <;> simp_all [Memory.read]
    omega

theorem Memory.mem_write {m : Memory} {a : Nat} {x : Byte} {c : Host.Cell} (h : c ∈ m.write a x) :
    c.1 = a ∨ c ∈ m := by
  induction m with
  | nil => simp [Memory.write] at h; simp [h]
  | cons e m ih =>
    obtain ⟨d, y⟩ := e
    simp only [Memory.write] at h
    split_ifs at h <;> simp only [List.mem_cons] at h ⊢
    · rcases h with rfl | h | h <;> simp_all
    · rcases h with rfl | h <;> simp_all
    · rcases h with rfl | h
      · simp
      · rcases ih h with h | h <;> simp [h]

/-- A write keeps the canonical form. -/
theorem Memory.write_wf {m : Memory} (hm : m.wf) (a : Nat) (x : Byte) : (m.write a x).wf := by
  induction m with
  | nil => simp [Memory.write, Memory.wf]
  | cons e m ih =>
    obtain ⟨d, y⟩ := e
    obtain ⟨hd, hm'⟩ := List.pairwise_cons.1 hm
    simp only [Memory.write]
    split_ifs with h1 h2
    · refine List.pairwise_cons.2 ⟨fun c hc => ?_, hm⟩
      rcases List.mem_cons.1 hc with rfl | hc
      · exact h1
      · exact lt_trans h1 (hd c hc)
    · subst h2; exact List.pairwise_cons.2 ⟨hd, hm'⟩
    · refine List.pairwise_cons.2 ⟨fun c hc => ?_, ih hm'⟩
      rcases Memory.mem_write hc with hc | hc
      · show d < c.1; omega
      · exact hd c hc

theorem writeLane_read (m : Memory) (j : Nat) (d : Word) (b : Strobe) (i a : Nat) :
    (writeLane m j d b i).read a = if j + i = a ∧ b.getLsbD i = true then some (lane d i) else m.read a := by
  unfold writeLane
  by_cases h : b.getLsbD i = true <;> simp [h, Memory.read_write]

theorem writeLane_wf {m : Memory} (hm : m.wf) (j : Nat) (d : Word) (b : Strobe) (i : Nat) :
    (writeLane m j d b i).wf := by
  unfold writeLane
  split
  · exact Memory.write_wf hm _ _
  · exact hm

theorem mem_writeLane {m : Memory} {j : Nat} {d : Word} {b : Strobe} {i : Nat} {c : Host.Cell}
    (h : c ∈ writeLane m j d b i) : c.1 = j + i ∨ c ∈ m := by
  unfold writeLane at h
  split at h
  · exact Memory.mem_write h
  · exact .inr h

/-- A message write stores the enabled lanes and leaves every other byte as it was. -/
theorem writeLanes_read (m : Memory) (j : Nat) (d : Word) (b : Strobe) (a : Nat) :
    (writeLanes m j d b).read a =
      if j ≤ a ∧ a < j + 4 ∧ b.getLsbD (a - j) = true then some (lane d (a - j)) else m.read a := by
  unfold writeLanes
  simp only [writeLane_read]
  by_cases h : j ≤ a ∧ a < j + 4
  · obtain ⟨h1, h2⟩ := h
    obtain ⟨k, rfl⟩ : ∃ k, a = j + k := ⟨a - j, by omega⟩
    have hk : k = 0 ∨ k = 1 ∨ k = 2 ∨ k = 3 := by omega
    rcases hk with rfl | rfl | rfl | rfl <;> simp
  · rw [if_neg (by omega), if_neg (by omega), if_neg (by omega), if_neg (by omega), if_neg (by tauto)]

/-- A message write keeps the canonical form. -/
theorem writeLanes_wf {m : Memory} (hm : m.wf) (j : Nat) (d : Word) (b : Strobe) : (writeLanes m j d b).wf :=
  writeLane_wf (writeLane_wf (writeLane_wf (writeLane_wf hm _ _ _ _) _ _ _ _) _ _ _ _) _ _ _ _

theorem mem_writeLanes {m : Memory} {j : Nat} {d : Word} {b : Strobe} {c : Host.Cell}
    (h : c ∈ writeLanes m j d b) : (j ≤ c.1 ∧ c.1 < j + 4) ∨ c ∈ m := by
  unfold writeLanes at h
  rcases mem_writeLane h with h | h
  · omega
  rcases mem_writeLane h with h | h
  · omega
  rcases mem_writeLane h with h | h
  · omega
  rcases mem_writeLane h with h | h
  · omega
  · exact .inr h

end Sys2Proof.Machine
end

