-- ==== Sys2Proof/Laws/Padder.lean ====
section
/-! SUPPORT. Everything the read of a message byte, PAD(j) and a schedule word's load can answer. -/

namespace Sys2Proof.Machine

theorem memRead_cases {s : State} {j : Nat} (hj : j < s.config.msgCap.toNat) :
    (∃ b, s.msg.read j = some b ∧ memRead s j = .ok b) ∨
    (s.msg.read j = none ∧ memRead s j = .error .unwrittenMsgRead) := by
  unfold memRead
  rw [if_pos hj]
  cases s.msg.read j <;> simp

/-- PAD(j) below PLEN, for a length that fits: a byte, or the model fault for an UNWRITTEN byte below LEN. -/
theorem pad_cases {s : State} (hcap : s.len.toNat ≤ s.config.msgCap.toNat) {j : Nat} (hj : j < plenOf s.len) :
    (∃ b, pad s j = .ok b ∧ (j < s.len.toNat → s.msg.read j = some b)) ∨
    (j < s.len.toNat ∧ s.msg.read j = none ∧ pad s j = .error .unwrittenMsgRead) := by
  unfold pad
  by_cases h1 : j < s.len.toNat
  · rw [if_pos h1]
    rcases memRead_cases (s := s) (j := j) (by omega) with ⟨b, h, e⟩ | ⟨h, e⟩ <;> rw [e]
    · exact .inl ⟨b, rfl, fun _ => h⟩
    · exact .inr ⟨h1, h, rfl⟩
  · rw [if_neg h1, if_neg (by omega)]
    refine .inl ?_
    split
    · exact ⟨_, rfl, fun h => absurd h h1⟩
    · split <;> exact ⟨_, rfl, fun h => absurd h h1⟩

/-- The four bytes of a schedule word: a word of the four, or the first of them that stops. -/
theorem padWord_cases (s : State) (j : Nat) :
    (∃ b0 b1 b2 b3, pad s j = .ok b0 ∧ pad s (j + 1) = .ok b1 ∧ pad s (j + 2) = .ok b2 ∧ pad s (j + 3) = .ok b3 ∧
      padWord s j = .ok (b0 ++ b1 ++ b2 ++ b3)) ∨
    (∃ i f, i < 4 ∧ pad s (j + i) = .error f ∧ padWord s j = .error f) := by
  unfold padWord
  cases h0 : pad s j with
  | error f => exact .inr ⟨0, f, by omega, h0, rfl⟩
  | ok b0 =>
  cases h1 : pad s (j + 1) with
  | error f => exact .inr ⟨1, f, by omega, h1, rfl⟩
  | ok b1 =>
  cases h2 : pad s (j + 2) with
  | error f => exact .inr ⟨2, f, by omega, h2, rfl⟩
  | ok b2 =>
  cases h3 : pad s (j + 3) with
  | error f => exact .inr ⟨3, f, by omega, h3, rfl⟩
  | ok b3 => exact .inl ⟨b0, b1, b2, b3, rfl, rfl, rfl, rfl, rfl⟩

end Sys2Proof.Machine
end

