-- ==== Sys2Proof/Laws/PerInstr.lean ====
section
/-! SUPPORT. What holds of every command as syntax, one lemma per constructor. -/

namespace Sys2Proof.Laws.Encoding

/-- The word of a command (30_encoding.md R90, R93): RSVD is 0 and CMD is one of the three codes. -/
def Statement (i : Instr) : Prop := i.wf = true ∧ rsvdField (encode i) = 0#28 ∧ (cmdField (encode i)).toNat < 3

theorem nop : Statement .nop := by unfold Statement; decide

theorem init : Statement .init := by unfold Statement; decide

theorem hash : Statement .hash := by unfold Statement; decide

end Sys2Proof.Laws.Encoding
end

