-- ==== Sys2Proof/Laws/Sequencer.lean ====
section
/-!
SUPPORT. STEP as a number, and the two branches of SchedNext and RoundNext.
-/

namespace Sys2Proof.Machine

theorem seqStep_lt_iff {x : BitVec 6} {n : Nat} (hn : n < 64) : x < BitVec.ofNat 6 n ↔ x.toNat < n := by
  rw [BitVec.lt_def, BitVec.toNat_ofNat, Nat.mod_eq_of_lt (by omega)]

theorem seqStep_succ {x : BitVec 6} (h : x.toNat < 63) : (x + 1#6).toNat = x.toNat + 1 := by
  rw [BitVec.toNat_add, BitVec.toNat_ofNat]; omega

theorem blkCnt_succ {x y : Word} (h : x.toNat < y.toNat) : (x + 1#32).toNat = x.toNat + 1 := by
  have := y.isLt
  rw [BitVec.toNat_add, BitVec.toNat_ofNat]; omega

theorem schedNext_more {s : State} (h : s.seqStep.toNat < 63) :
    schedNext s = { s with seqStep := s.seqStep + 1#6 } := by
  unfold schedNext
  rw [if_pos ((seqStep_lt_iff (by omega)).2 h)]

theorem schedNext_last {s : State} (h : s.seqStep.toNat = 63) :
    schedNext s = { s with phase := .loadwv, seqStep := 0#6 } := by
  unfold schedNext
  rw [if_neg (mt (seqStep_lt_iff (by omega)).1 (by omega))]

theorem roundNext_more {s : State} (h : s.seqStep.toNat < 63) :
    roundNext s = { s with seqStep := s.seqStep + 1#6 } := by
  unfold roundNext
  rw [if_pos ((seqStep_lt_iff (by omega)).2 h)]

theorem roundNext_last {s : State} (h : s.seqStep.toNat = 63) :
    roundNext s = { s with phase := .fold, seqStep := 0#6 } := by
  unfold roundNext
  rw [if_neg (mt (seqStep_lt_iff (by omega)).1 (by omega))]

end Sys2Proof.Machine
end

