-- ==== Sys2Proof/Laws/Turns.lean ====
section
/-!
SUPPORT. Everything one step can do: one inversion lemma for the sequencer, one for a transaction, one for a step.
-/

namespace Sys2Proof.Machine

open Sys2Proof.Safety

/-- Everything a completed turn of the sequencer can be (45_commands.md R220). -/
theorem microStep_next {s t : State} (h : microStep s = .next t) :
    (s.busy = false ∧ t = s) ∨
    (s.busy = true ∧ s.phase = .sched ∧ s.seqStep < 16#6 ∧
      ∃ x, padWord s (wordIndex s s.seqStep) = .ok x ∧ t = schedNext (storeW s s.seqStep x)) ∨
    (s.busy = true ∧ s.phase = .sched ∧ ¬ s.seqStep < 16#6 ∧ t = schedNext (expandW s s.seqStep)) ∨
    (s.busy = true ∧ s.phase = .loadwv ∧ t = loadwvNext (loadWv s)) ∨
    (s.busy = true ∧ s.phase = .round ∧ t = roundNext (roundStep s s.seqStep)) ∨
    (s.busy = true ∧ s.phase = .fold ∧ t = foldNext (foldStep s)) ∨
    (s.busy = true ∧ s.phase = .format ∧ t = formatNext (formatStep s)) := by
  cases hb : s.busy
  · simp only [microStep, hb, Bool.false_eq_true, if_false, Host.Outcome.next.injEq] at h
    exact .inl ⟨rfl, h.symm⟩
  · simp only [microStep, hb, if_true, busyMicro] at h
    cases hp : s.phase <;> simp only [hp] at h
    · cases h
    · unfold schedMicro at h
      by_cases hs : s.seqStep < 16#6
      · simp only [hs, if_true, loadW] at h
        cases hx : padWord s (wordIndex s s.seqStep) <;> simp only [hx] at h
        · cases h
        · cases h; exact .inr (.inl ⟨rfl, rfl, hs, _, rfl, rfl⟩)
      · simp only [hs, if_false] at h
        cases h; exact .inr (.inr (.inl ⟨rfl, rfl, hs, rfl⟩))
    all_goals cases h
    · exact .inr (.inr (.inr (.inl ⟨rfl, rfl, rfl⟩)))
    · exact .inr (.inr (.inr (.inr (.inl ⟨rfl, rfl, rfl⟩))))
    · exact .inr (.inr (.inr (.inr (.inr (.inl ⟨rfl, rfl, rfl⟩)))))
    · exact .inr (.inr (.inr (.inr (.inr (.inr ⟨rfl, rfl, rfl⟩)))))

theorem storeUnlessBusy_next {s s' t : State} (h : storeUnlessBusy s s' = .next t) :
    (s.busy = true ∧ t = reject s .wr) ∨ (s.busy = false ∧ t = s') := by
  unfold storeUnlessBusy at h
  cases hb : s.busy <;> simp only [hb, if_true, Bool.false_eq_true, if_false] at h <;> cases h
  · exact .inr ⟨rfl, rfl⟩
  · exact .inl ⟨rfl, rfl⟩

/-- Everything a completed transaction can be (20_memory.md R62 to R66): it answers, and it does nothing else, or is a
write of CTRL, STATUS, LEN or MSG. -/
theorem transact_next {s t : State} {x : Txn} (h : transact s x = .next t) : ∃ r,
    t = respond s r ∨
    (∃ d b, x = .write 0x00000004#32 d b ∧ b ≠ 0#4 ∧ command (respond s r) (effective d b) = .next t) ∨
    (∃ d b, x = .write 0x00000008#32 d b ∧ b ≠ 0#4 ∧ t = clearErrors (respond s r) (effective d b)) ∨
    (∃ d b, x = .write 0x0000000C#32 d b ∧ b ≠ 0#4 ∧
      ((s.busy = true ∧ t = reject (respond s r) .wr) ∨ (s.busy = false ∧ t = setLenLo (respond s r) d b))) ∨
    (∃ d b, x = .write 0x00000010#32 d b ∧ b ≠ 0#4 ∧
      ((s.busy = true ∧ t = reject (respond s r) .wr) ∨ (s.busy = false ∧ t = setLenHi (respond s r) d b))) ∨
    (∃ a d b, x = .write a d b ∧ a.toNat % 4 = 0 ∧ b ≠ 0#4 ∧ InMsgWindow s a ∧
      ((s.busy = true ∧ t = reject (respond s r) .wr) ∨
        (s.busy = false ∧ t = storeMsg (respond s r) (a.toNat - msgBase) d b))) := by
  cases x with
  | read a =>
    rcases busRead_cases s a with ⟨_, e⟩ | ⟨_, v, _, e⟩ | ⟨_, f, _, e⟩ <;>
      simp only [transact, e] at h <;> cases h <;> exact ⟨_, .inl rfl⟩
  | write a d b =>
    rcases busWrite_cases s a d b with ⟨_, e⟩ | ⟨_, _, e⟩ | ⟨ha, hb, e⟩ <;> simp only [transact, e] at h
    · cases h; exact ⟨_, .inl rfl⟩
    · cases h; exact ⟨_, .inl rfl⟩
    · refine ⟨.write false, ?_⟩
      rcases writeLoc_cases (respond s (.write false)) a d b with
        ⟨rfl, e⟩ | ⟨rfl, e⟩ | ⟨rfl, e⟩ | ⟨rfl, e⟩ | ⟨hw, e⟩ | ⟨_, e⟩ <;>
        simp only [respond_config] at e <;> rw [e] at h
      · exact .inr (.inl ⟨d, b, rfl, hb, h⟩)
      · cases h; exact .inr (.inr (.inl ⟨d, b, rfl, hb, rfl⟩))
      · exact .inr (.inr (.inr (.inl ⟨d, b, rfl, hb, storeUnlessBusy_next h⟩)))
      · exact .inr (.inr (.inr (.inr (.inl ⟨d, b, rfl, hb, storeUnlessBusy_next h⟩))))
      · exact .inr (.inr (.inr (.inr (.inr ⟨a, d, b, rfl, ha, hb, hw, storeUnlessBusy_next h⟩))))
      · cases h; exact .inl rfl

/-- Everything a step can be (20_memory.md R60): a turn of the sequencer, a transaction, or a reset. -/
theorem step_cases (s : State) :
    (SequencerTurn s ∧ ∃ rest, step s = microStep (beginTurn s rest)) ∨
    (∃ x rest, s.inputs = .bus x :: rest ∧ step s = transact (beginTurn s rest) x) ∨
    (∃ p rest, s.inputs = .reset p :: rest ∧ step s = .next (resetStep (beginTurn s rest) p)) := by
  unfold step nextTurn SequencerTurn
  cases hi : s.inputs with
  | nil => exact .inl ⟨.inl rfl, _, rfl⟩
  | cons e rest =>
    cases e with
    | sequencer => exact .inl ⟨.inr rfl, _, rfl⟩
    | bus x => exact .inr (.inl ⟨x, rest, rfl, rfl⟩)
    | reset p => exact .inr (.inr ⟨p, rest, rfl, rfl⟩)

/-- The input at the head, as a host write that does something. -/
theorem writeTurn_of {s : State} {a d : Word} {b : Strobe} {rest : List Input}
    (h : s.inputs = .bus (.write a d b) :: rest) (ha : a.toNat % 4 = 0) (hb : b ≠ 0#4) : WriteTurn s a d b :=
  ⟨by rw [h]; rfl, ha, hb⟩

theorem resetTurn_of {s : State} {p : Option Txn} {rest : List Input} (h : s.inputs = .reset p :: rest) :
    ResetTurn s := ⟨p, by rw [h]; rfl⟩

/-- Everything a completed step can be, over a state `s0` that differs from `s` in the inputs and the response only. -/
theorem step_next {s t : State} (h : step s = .next t) :
    ∃ s0 : State, SameComputation s s0 ∧ SameErrors s s0 ∧ s0.config = s.config ∧ (
    (SequencerTurn s ∧ microStep s0 = .next t) ∨
    (ResetTurn s ∧ ∃ p, t = resetStep s0 p) ∨
    t = s0 ∨
    (∃ d b, WriteTurn s 0x00000004#32 d b ∧ command s0 (effective d b) = .next t) ∨
    (∃ d b, WriteTurn s 0x00000008#32 d b ∧ t = clearErrors s0 (effective d b)) ∨
    (∃ d b, WriteTurn s 0x0000000C#32 d b ∧
      ((s.busy = true ∧ t = reject s0 .wr) ∨ (s.busy = false ∧ t = setLenLo s0 d b))) ∨
    (∃ d b, WriteTurn s 0x00000010#32 d b ∧
      ((s.busy = true ∧ t = reject s0 .wr) ∨ (s.busy = false ∧ t = setLenHi s0 d b))) ∨
    (∃ a d b, WriteTurn s a d b ∧ InMsgWindow s a ∧
      ((s.busy = true ∧ t = reject s0 .wr) ∨ (s.busy = false ∧ t = storeMsg s0 (a.toNat - msgBase) d b)))) := by
  rcases step_cases s with ⟨hs, rest, e⟩ | ⟨x, rest, hi, e⟩ | ⟨p, rest, hi, e⟩ <;> rw [e] at h
  · exact ⟨beginTurn s rest, by constructor <;> rfl, by constructor <;> rfl, rfl, .inl ⟨hs, h⟩⟩
  · obtain ⟨r, hr⟩ := transact_next h
    refine ⟨respond (beginTurn s rest) r, by constructor <;> rfl, by constructor <;> rfl, rfl, .inr (.inr ?_)⟩
    rcases hr with h | ⟨d, b, rfl, hb, h⟩ | ⟨d, b, rfl, hb, h⟩ | ⟨d, b, rfl, hb, h⟩ | ⟨d, b, rfl, hb, h⟩ |
      ⟨a, d, b, rfl, ha, hb, hw, h⟩
    · exact .inl h
    · exact .inr (.inl ⟨d, b, writeTurn_of hi rfl hb, h⟩)
    · exact .inr (.inr (.inl ⟨d, b, writeTurn_of hi rfl hb, h⟩))
    · exact .inr (.inr (.inr (.inl ⟨d, b, writeTurn_of hi rfl hb, h⟩)))
    · exact .inr (.inr (.inr (.inr (.inl ⟨d, b, writeTurn_of hi rfl hb, h⟩))))
    · exact .inr (.inr (.inr (.inr (.inr ⟨a, d, b, writeTurn_of hi ha hb, hw, h⟩))))
  · cases h
    exact ⟨beginTurn s rest, by constructor <;> rfl, by constructor <;> rfl, rfl, .inr (.inl ⟨resetTurn_of hi, p, rfl⟩)⟩

@[simp] theorem run_zero (s : State) : run 0 s = .next s := rfl

/-- A run begins with a step. -/
theorem run_succ {k : Nat} {s t : State} (h : step s = .next t) : run (k + 1) s = run k t := by
  simp only [run, Host.Core.run, core, h]

theorem run_add {a b : Nat} {s t : State} (h : run a s = .next t) : run (a + b) s = run b t := by
  induction a generalizing s with
  | zero => cases h; rw [Nat.zero_add]
  | succ a ih =>
    cases hs : step s with
    | next u =>
      rw [run_succ hs] at h
      rw [show a + 1 + b = (a + b) + 1 by omega, run_succ hs]
      exact ih h
    | fault f => simp [run, Host.Core.run, core, hs] at h
    | refused r => simp [run, Host.Core.run, core, hs] at h

theorem step_sequencer {s : State} {rest : List Input} (h : s.inputs = .sequencer :: rest) :
    step s = microStep (beginTurn s rest) := by
  simp only [step, nextTurn, h, takeTurn]

theorem step_empty {s : State} (h : s.inputs = []) : step s = microStep (beginTurn s []) := by
  simp only [step, nextTurn, h]

theorem step_bus {s : State} {x : Txn} {rest : List Input} (h : s.inputs = .bus x :: rest) :
    step s = transact (beginTurn s rest) x := by
  simp only [step, nextTurn, h, takeTurn]

end Sys2Proof.Machine
end

