-- ==== Sys2Proof/Tests/Slice0.lean ====
section
/-!
SUPPORT. The model's own tests. The expected values are those of 95_test_vectors.md (the vector's name stands in
each comment) or are written out from the rule that is named; the witnesses show that the hypotheses of the
statements can be met together.
-/

namespace Sys2Proof.Tests

open Sys2Proof Sys2Proof.Machine Sys2Proof.Document Sys2Proof.Safety

/-! ## Small states and helpers -/

/-- A field of the state a step ends in. -/
def after {α : Type} (r : Result) (f : State → α) : Option α :=
  match r with
  | .next t => some (f t)
  | .fault _ => none
  | .refused _ => none

/-- "abc" loaded, LEN = 3. -/
def loaded : State := { State.reset with msg := [(0, 0x61#8), (1, 0x62#8), (2, 0x63#8)], len := 3#64 }

/-- The HASH of "abc" just accepted (V-SEQ, k = 0). -/
def hashing : State := { loaded with h := ivRom, nblk := 1#32, phase := .sched, busy := true }

/-- A HASH over an UNWRITTEN message just accepted (V-FAULT). -/
def hashingUnwritten : State := { hashing with msg := [], len := 4#64 }

/-- A result of zeros held: DONE = 1. -/
def finished : State := { loaded with hex := hexDigits loaded.h, done := true }

/-- One input placed before the sequencer's turns. -/
def withInput (s : State) (e : Input) : State := { s with inputs := [e] }

/-- The registers just before FORMAT. -/
def formatting (h v : Vector Word 8) (w : Vector Word 64) : State :=
  { hashing with h := h, wv := v, w := w, blkCnt := 1#32, phase := .format }

/-! ## Decoding and well-formedness -/

/-- 30_encoding.md R93, the word written out bit by bit. -/
theorem test_decode_nop : decode 0b0000000000000000000000000000_0000#32 = .ok .nop := by decide

theorem test_decode_init : decode 0b0000000000000000000000000000_0001#32 = .ok .init := by decide

theorem test_decode_hash : decode 0b0000000000000000000000000000_0010#32 = .ok .hash := by decide

/-- The byte lanes of HASH, lane 0 first (20_memory.md R63). -/
theorem test_decode_hash_bytes : decodeBytes [0x02#8, 0x00#8, 0x00#8, 0x00#8] = .ok (.hash, []) := by decide

theorem test_decode_swapped_bytes : decodeBytes [0x00#8, 0x00#8, 0x00#8, 0x02#8] = .error .reservedBits := by decide

theorem test_decode_truncated : decodeBytes [0x02#8, 0x00#8, 0x00#8] = .error .truncated := by decide

/-- V-CMD. -/
theorem test_decode_reserved :
    decode 0x3#32 = .error .reservedOpcode ∧ decode 0xF#32 = .error .reservedOpcode ∧
    decode 0x10#32 = .error .reservedBits ∧ decode 0x80000002#32 = .error .reservedBits := by decide

/-- 00_scope.md R7: below the least capacity, no multiple of 4, above the greatest. -/
theorem test_config_ill_formed :
    Config.wf ⟨60#32⟩ = false ∧ Config.wf ⟨66#32⟩ = false ∧ Config.wf ⟨0xFFFF0004#32⟩ = false := by decide

theorem test_config_well_formed :
    Config.wf ⟨64#32⟩ = true ∧ Config.wf ⟨0xFFFF0000#32⟩ = true ∧ Config.wf Config.standard = true := by decide

/-- V-ALIGN. -/
theorem test_txn_misaligned :
    Txn.aligned (.read 0x002#32) = false ∧ Txn.aligned (.read 0x00010001#32) = false ∧
    Txn.aligned (.write 0x007#32 0x2#32 0b1111#4) = false ∧ Txn.aligned (.read 0x008#32) = true := by decide

/-! ## The three commands -/

/-- V-CMD, NOP from a state with DONE = 1. -/
theorem test_nop_keeps_status : after (exec .nop finished) statusWord = some 0x00000002#32 := by decide

/-- 60_exceptions.md R242. -/
theorem test_nop_busy : after (exec .nop hashing) statusWord = some 0x00000201#32 := by decide

/-- P2. -/
theorem test_init_h : after (exec .init State.reset) (fun t => (t.h[0], t.h[7])) =
    some (0x6A09E667#32, 0x5BE0CD19#32) := by decide

/-- V-CMD, INIT. -/
theorem test_init_status : after (exec .init finished) (fun t => (statusWord t, t.hex[0])) =
    some (0x00000000#32, 0x00#8) := by decide

/-- V-SEQ, k = 0, and V-LEN: LEN = MSG_CAP is accepted with NBLK = 65. -/
theorem test_hash_accept : after (exec .hash { State.reset with len := 0x1000#64 })
    (fun t => (statusWord t, seqWord t, t.nblk)) = some (0x00000001#32, 0x00000001#32, 65#32) := by decide

/-- V-LEN, LEN = 2^32. -/
theorem test_hash_len_hi : after (exec .hash { State.reset with len := 0x100000000#64 })
    (fun t => (statusWord t, t.nblk)) = some (0x00000400#32, 0#32) := by decide

/-- Each command as the first instruction after reset (log entry 10). -/
theorem test_first_instruction :
    after (step (State.reset.withFetchWord 32 0)) (·.phase) = some .idle ∧
    after (step (State.reset.withFetchWord 32 1)) (fun t => t.h[0]) = some 0x6A09E667#32 ∧
    after (step (State.reset.withFetchWord 32 2)) (·.busy) = some true ∧
    decodeTableWord 32 2 = some .hash := by decide

/-! ## Operators and functions (V-OP, V-FN, V-CM) -/

theorem test_operators :
    add32 0xFFFFFFFF#32 1#32 = 0#32 ∧ rotr 0x12345678#32 8 = 0x78123456#32 ∧ rotr 0x80000000#32 31 = 1#32 ∧
    shr 0x80000000#32 3 = 0x10000000#32 ∧ xor32 0xFF00FF00#32 0x12345678#32 = 0xED34A978#32 ∧
    and32 0xFF00FF00#32 0x12345678#32 = 0x12005600#32 ∧ not32 0xFF00FF00#32 = 0x00FF00FF#32 := by decide

theorem test_sigma :
    sigma0 0xDEADBEEF#32 = 0xABD31B0B#32 ∧ sigma1 0xDEADBEEF#32 = 0x689DBFEC#32 ∧
    bigSigma0 0xDEADBEEF#32 = 0xB62E25AC#32 ∧ bigSigma1 0xDEADBEEF#32 = 0x345E14A3#32 := by decide

theorem test_ch_maj :
    ch 0xFF00FF00#32 0x12345678#32 0x9ABCDEF0#32 = 0x12BC56F0#32 ∧
    maj 0xFF00FF00#32 0x12345678#32 0x9ABCDEF0#32 = 0x9A34DE70#32 := by decide

/-- V-R0. -/
theorem test_round : roundWords ivRom kRom[0] 0x61626380#32 =
    #v[0x5D6AEBCD#32, 0x6A09E667#32, 0xBB67AE85#32, 0x3C6EF372#32,
      0xFA2A4622#32, 0x510E527F#32, 0x9B05688C#32, 0x1F83D9AB#32] := by decide

/-- V-FOLD, with a carry out of bit 31. -/
theorem test_fold : (foldWords (Vector.replicate 8 0xBB67AE85#32) (Vector.replicate 8 0xD39A2165#32))[1] =
    0x8F01CFEA#32 := by decide

/-- V-HEX. -/
theorem test_hex_word : readLoc { State.reset with hex := hexDigits (Vector.replicate 8 0xBA7816BF#32) } (.hex 0) =
    .ok 0x38376162#32 := by decide

/-- V-PADB. -/
theorem test_pad :
    pad loaded 2 = .ok 0x63#8 ∧ pad loaded 3 = .ok 0x80#8 ∧ pad loaded 4 = .ok 0x00#8 ∧
    pad loaded 62 = .ok 0x00#8 ∧ pad loaded 63 = .ok 0x18#8 := by decide

/-- V-PADB, LEN = 56: the second block. -/
theorem test_pad_two_blocks :
    let s := { State.reset with len := 56#64 }
    pad s 56 = .ok 0x80#8 ∧ pad s 125 = .ok 0x00#8 ∧ pad s 126 = .ok 0x01#8 ∧ pad s 127 = .ok 0xC0#8 := by decide

/-- V-SEQ, k = 1: the big-endian assembly of V-LANE. -/
theorem test_loadw : after (microStep hashing) (fun t => (t.w[0], seqWord t)) =
    some (0x61626380#32, 0x00000101#32) := by decide

/-- V-W1, t = 18, from W[16] and the words of the block. -/
theorem test_expandw : expandSum 0x61626380#32 0#32 0#32 0#32 = 0x7DA86405#32 := by decide

/-! ## The bus and the errors -/

/-- V-MAP. -/
theorem test_map :
    readLoc State.reset (locAt 0x1000#32 0x000#32) = .ok 0x53484132#32 ∧
    readLoc State.reset (locAt 0x1000#32 0x020#32) = .ok 0x00001000#32 ∧
    readLoc State.reset (locAt 0x1000#32 0x07C#32) = .ok 0x5BE0CD19#32 ∧
    readLoc State.reset (locAt 0x1000#32 0x3FC#32) = .ok 0xC67178F2#32 ∧
    readLoc State.reset (locAt 0x1000#32 0x00011000#32) = .ok 0#32 := by decide

/-- V-LANE. -/
theorem test_lanes : after (transact State.reset (.write 0x00010000#32 0x00636261#32 0b0111#4))
    (fun t => (t.msg.read 0, t.msg.read 2, t.msg.read 3)) = some (some 0x61#8, some 0x63#8, none) := by decide

/-- V-MERGE. -/
theorem test_merge : after (transact { State.reset with len := 0x11223344#64 }
    (.write 0x00C#32 0xAABBCCDD#32 0b0010#4)) (·.len) = some 0x1122CC44#64 := by decide

/-- V-W1C. -/
theorem test_w1c :
    let s := { hashing with errBusy := true, errWr := true }
    after (transact s (.write 0x008#32 0x00000200#32 0b1111#4)) statusWord = some 0x00000801#32 ∧
    after (transact s (.write 0x008#32 0xFFFFFFFF#32 0b0001#4)) statusWord = some 0x00000A01#32 := by decide

/-- V-BUSY: one bit only, and the discarded write. -/
theorem test_busy :
    after (transact hashing (.write 0x004#32 0x00000003#32 0b1111#4)) statusWord = some 0x00000201#32 ∧
    after (transact hashing (.write 0x00010000#32 0xDEADBEEF#32 0b1111#4)) (fun t => (statusWord t, t.msg.read 0)) =
      some (0x00000801#32, some 0x61#8) := by decide

/-- V-FAULT. -/
theorem test_unwritten :
    microStep hashingUnwritten = .fault .unwrittenMsgRead ∧
    transact State.reset (.read 0x00010000#32) = .fault .unwrittenMsgRead ∧
    transact loaded (.read 0x00010000#32) = .fault .unwrittenMsgRead := by
  refine ⟨rfl, rfl, rfl⟩

/-- V-RST: the message stays, with its UNWRITTEN bytes. -/
theorem test_reset : after (step (withInput hashing (.reset none)))
    (fun t => (statusWord t, t.len, t.h[0], t.msg.read 0, t.msg.read 3)) =
      some (0#32, 0#64, 0#32, some 0x61#8, none) := by decide

/-- 43_compressor.md R171: the first 64 primes; the table of R172 names 2, 3, 5, 7 and 19, and 311 is the 64th. -/
theorem test_first_primes : Document.firstPrimes.length = 64 ∧ Document.firstPrimes.take 4 = [2, 3, 5, 7] ∧
    Document.firstPrimes[7]? = some 19 ∧ Document.firstPrimes[63]? = some 311 := by decide +kernel

/-- 70_reset_and_hazards.md R270, 20_memory.md R61: a HASH presented with a reset has no effect and answers err = 0. -/
theorem test_reset_write : after (step (withInput loaded (.reset (some (.write 0x004#32 0x2#32 0b1111#4)))))
    (fun t => (t.busy, t.response)) = some (false, some (.write false)) := by decide

/-- 30_encoding.md R98: LOADMSG "abcde" is a full write and a partial one, SETLEN two writes. -/
theorem test_loadmsg :
    loadMsg [0x61#8, 0x62#8, 0x63#8, 0x64#8, 0x65#8] =
      [.bus (.write 0x00010000#32 0x64636261#32 0b1111#4), .bus (.write 0x00010004#32 0x00000065#32 0b0001#4)] ∧
    setLen 0x100000003#64 =
      [.bus (.write 0x00C#32 0x3#32 0b1111#4), .bus (.write 0x010#32 0x1#32 0b1111#4)] := by decide

/-! ## Witnesses: the invariants -/

theorem loaded_inv : Inv loaded := by constructor <;> decide

theorem hashing_inv : Inv hashing := by constructor <;> decide

theorem hashingUnwritten_inv : Inv hashingUnwritten := by constructor <;> decide

theorem finished_inv : Inv finished := by constructor <;> decide

theorem loaded_written : Written loaded := by unfold Written; decide

theorem hashing_written : Written hashing := loaded_written

theorem hashing_progress : HashProgress hashing := ⟨rfl, rfl⟩

theorem formatting_inv (h v : Vector Word 8) (w : Vector Word 64) : Inv (formatting h v w) where
  configLegal := hashing_inv.configLegal
  msgWf := hashing_inv.msgWf
  msgInCap := hashing_inv.msgInCap
  busyActive := rfl
  phaseUsed := by simp [formatting]
  stepZero := fun _ _ => rfl
  notBoth := fun _ => rfl
  lenFits := hashing_inv.lenFits
  nblkRunning := hashing_inv.nblkRunning
  nblkBound := hashing_inv.nblkBound
  blkRunning := by simp [formatting]
  blkEnd := fun _ => rfl
  hexMeaning := rfl

theorem formatting_progress : ∃ h v w, HashProgress (formatting h v w) := by
  generalize hb : padMessage (message hashing) = bytes
  generalize hv : rounds (Vars.ofState (hashBlocks bytes 0)) (expand (block bytes 0)) 64 = x
  have hm : ∀ h v w, padMessage (message (formatting h v w)) = bytes := fun _ _ _ => hb
  refine ⟨hashBlocks bytes 1, #v[x.a, x.b, x.c, x.d, x.e, x.f, x.g, x.h],
    ⟨(expand (block bytes 0)).toArray, by rw [List.size_toArray]; exact expand_length _⟩, ?_⟩
  unfold HashProgress
  rw [hm]
  exact ⟨rfl, rfl, hv.symm⟩

/-! ## Witnesses: the hypotheses of each statement, met together, one for each clause -/

theorem witness_EncodedCommandsDecodeBack : Instr.nop.wf = true ∧ Instr.init.wf = true ∧ Instr.hash.wf = true := by
  decide

theorem witness_StepTakesTheFirstInput :
    loaded.inputs = [] ∧ (withInput loaded .sequencer).inputs = .sequencer :: [] ∧
    (withInput loaded (rd 0x008#32)).inputs = .bus (.read 0x008#32) :: [] ∧
    (withInput loaded (.reset none)).inputs = .reset none :: [] := by decide

/-- V-CMD: only lane 0 is effective. -/
theorem witness_StepRunsTheDecodedCommand :
    (withInput loaded (wrStrobe 0x004#32 0xFFFFFF02#32 0b0001#4)).inputs =
      .bus (.write 0x00000004#32 0xFFFFFF02#32 0b0001#4) :: [] ∧
    (0b0001#4 : Strobe) ≠ 0#4 ∧ decode (effective 0xFFFFFF02#32 0b0001#4) = .ok .hash := by decide

theorem witness_NopChangesNothing : loaded.busy = false ∧ hashing.busy = true := by decide

theorem witness_InitLoadsTheInitialValue :
    loaded.busy = false ∧ hashing.busy = true ∧ ∃ t, exec .init loaded = .next t := ⟨rfl, rfl, _, rfl⟩

/-- LEN = MSG_CAP, the greatest accepted length. -/
theorem witness_HashIsAccepted :
    let s := { State.reset with len := 0x1000#64 }
    s.busy = false ∧ s.len.toNat ≤ s.config.msgCap.toNat := by decide

/-- LEN = MSG_CAP + 1, the least rejected length. -/
theorem witness_HashLengthCheck :
    let s := { State.reset with len := 0x1001#64 }
    s.busy = false ∧ s.config.msgCap.toNat < s.len.toNat := by decide

theorem witness_CommandWhileBusyIsLost : hashing.busy = true ∧ (0b1000#4 : Strobe) ≠ 0#4 := by decide

/-- The least word of each kind of RESERVED. -/
theorem witness_ReservedWordIsRejected :
    (0b1111#4 : Strobe) ≠ 0#4 ∧ (effective 0x10#32 0b1111#4).extractLsb' 4 28 ≠ 0#28 ∧
    3 ≤ ((effective 0x3#32 0b1111#4).extractLsb' 0 4).toNat ∧ loaded.busy = false ∧ hashing.busy = true := by decide

theorem witness_CommandFrame :
    (∃ t, exec .nop loaded = .next t) ∧ (∃ t, exec .init loaded = .next t) ∧ (∃ t, exec .hash hashing = .next t) ∧
    Instr.init ≠ .hash ∧ loaded.busy = false ∧ hashing.busy = true := by
  refine ⟨⟨_, rfl⟩, ⟨_, rfl⟩, ⟨_, rfl⟩, by decide, rfl, rfl⟩

theorem witness_StatusWriteClearsOnes : (0b0010#4 : Strobe) ≠ 0#4 := by decide

theorem witness_MisalignedAccessHasNoEffect :
    (0x001#32 : Word).toNat % 4 ≠ 0 ∧ (0xFFFFFFFF#32 : Word).toNat % 4 ≠ 0 := by decide

theorem witness_ZeroStrobeWriteHasNoEffect :
    (0x000#32 : Word).toNat % 4 = 0 ∧ (0xFFFFFFFC#32 : Word).toNat % 4 = 0 := by decide

theorem witness_LenWritesMergeLanes : loaded.busy = false ∧ (0b1000#4 : Strobe) ≠ 0#4 := by decide

/-- The first and the last word of the message memory. -/
theorem witness_MessageWriteStoresLanes :
    loaded.busy = false ∧ (0b1000#4 : Strobe) ≠ 0#4 ∧
    (0x00010000#32 : Word).toNat % 4 = 0 ∧ InMsgWindow loaded 0x00010000#32 ∧
    (0x00010FFC#32 : Word).toNat % 4 = 0 ∧ InMsgWindow loaded 0x00010FFC#32 := by
  unfold InMsgWindow; decide

theorem witness_LenAndMessageWritesWhileBusyAreDiscarded :
    hashing.busy = true ∧ (0b1000#4 : Strobe) ≠ 0#4 ∧
    (0x0000000C#32 : Word).toNat % 4 = 0 ∧ (0x00000010#32 : Word).toNat % 4 = 0 ∧
    (0x00010FFC#32 : Word).toNat % 4 = 0 ∧ InMsgWindow hashing 0x00010FFC#32 := by
  unfold InMsgWindow; decide

/-- The first and the last aligned offset of each reserved range, with MSG_CAP = 0x1000, and offsets that ignore writes. -/
theorem witness_ReservedAndReadOnlyOffsets :
    (∀ a ∈ [0x024, 0x03C, 0x0A0, 0x0FC, 0x140, 0x1FC, 0x400, 0xFFFC, 0x00011000, 0xFFFFFFFC],
      a % 4 = 0 ∧ Reserved loaded (BitVec.ofNat 32 a) ∧ IgnoresWrites loaded (BitVec.ofNat 32 a)) ∧
    (∀ a ∈ [0x000, 0x014, 0x020, 0x040, 0x05C, 0x3FC], a % 4 = 0 ∧ IgnoresWrites loaded (BitVec.ofNat 32 a)) := by
  have hc : loaded.config.msgCap.toNat = 0x1000 := rfl
  simp [Reserved, IgnoresWrites, InMsgWindow, hc]

/-- The first and the last word of the message memory. -/
theorem witness_MessageRead :
    let s := { loaded with msg := [(0, 1#8), (1, 2#8), (2, 3#8), (3, 4#8),
      (0xFFC, 5#8), (0xFFD, 6#8), (0xFFE, 7#8), (0xFFF, 8#8)] }
    s.config.Legal ∧ (0 < s.config.msgCap.toNat ∧ s.msg.read 0 = some 1#8 ∧ s.msg.read 1 = some 2#8 ∧
      s.msg.read 2 = some 3#8 ∧ s.msg.read 3 = some 4#8) ∧
    (0xFFC % 4 = 0 ∧ 0xFFC < s.config.msgCap.toNat ∧ s.msg.read 0xFFC = some 5#8 ∧ s.msg.read 0xFFD = some 6#8 ∧
      s.msg.read 0xFFE = some 7#8 ∧ s.msg.read 0xFFF = some 8#8) ∧ s.msg.read (4 + 3) = none := by
  decide

theorem witness_OperatorsCompute : (0 : Nat) < 32 ∧ (31 : Nat) < 32 := by decide

theorem witness_PaddedLengthIsLeast : 64 % 64 = 0 ∧ (55#64 : DWord).toNat + 9 ≤ 64 := by decide

theorem witness_PadIsTheDocumentsPad :
    loaded.config.Legal ∧ loaded.len.toNat ≤ loaded.config.msgCap.toNat ∧ Written loaded ∧ 63 < plenOf loaded.len :=
  ⟨loaded_inv.configLegal, by decide, loaded_written, by decide⟩

/-- The first and the last LOADW. -/
theorem witness_LoadwStep :
    let s := { hashing with seqStep := 15#6 }
    (hashing.busy = true ∧ hashing.phase = .sched ∧ hashing.seqStep.toNat = (0 : Fin 64).val ∧
      pad hashing 0 = .ok 0x61#8 ∧ pad hashing 1 = .ok 0x62#8 ∧ pad hashing 2 = .ok 0x63#8 ∧
      pad hashing 3 = .ok 0x80#8) ∧
    (s.busy = true ∧ s.phase = .sched ∧ s.seqStep.toNat = (15 : Fin 64).val ∧ (15 : Fin 64).val < 16 ∧
      pad s 60 = .ok 0x00#8 ∧ pad s 61 = .ok 0x00#8 ∧ pad s 62 = .ok 0x00#8 ∧ pad s 63 = .ok 0x18#8) := by decide

theorem witness_LoadwFaultsOnUnwrittenByte :
    Inv hashingUnwritten ∧ hashingUnwritten.busy = true ∧ hashingUnwritten.phase = .sched ∧
    hashingUnwritten.seqStep.toNat < 16 ∧
    64 * hashingUnwritten.blkCnt.toNat + 4 * hashingUnwritten.seqStep.toNat + 3 < hashingUnwritten.len.toNat ∧
    hashingUnwritten.msg.read (64 * hashingUnwritten.blkCnt.toNat + 4 * hashingUnwritten.seqStep.toNat + 3) = none :=
  ⟨hashingUnwritten_inv, by decide⟩

/-- The first and the last EXPANDW. -/
theorem witness_ExpandwStep :
    let s := { hashing with seqStep := 16#6 }
    let s' := { hashing with seqStep := 63#6 }
    (s.busy = true ∧ s.phase = .sched ∧ s.seqStep.toNat = (16 : Fin 64).val ∧ 16 ≤ (16 : Fin 64).val) ∧
    (s'.busy = true ∧ s'.phase = .sched ∧ s'.seqStep.toNat = (63 : Fin 64).val) := by decide

theorem witness_LoadwvStep :
    let s := { hashing with phase := .loadwv }
    s.busy = true ∧ s.phase = .loadwv := by decide

/-- The first and the last round. -/
theorem witness_RoundStep :
    let s := { hashing with phase := .round }
    let s' := { hashing with phase := .round, seqStep := 63#6 }
    (s.busy = true ∧ s.phase = .round ∧ s.seqStep.toNat = (0 : Fin 64).val) ∧
    (s'.busy = true ∧ s'.phase = .round ∧ s'.seqStep.toNat = (63 : Fin 64).val) := by decide

/-- The last block's FOLD, and one before it. -/
theorem witness_FoldStep :
    let s := { hashing with phase := .fold }
    let s' := { hashing with phase := .fold, nblk := 2#32 }
    (s.busy = true ∧ s.phase = .fold ∧ s.blkCnt + 1#32 = s.nblk) ∧
    (s'.busy = true ∧ s'.phase = .fold ∧ s'.blkCnt + 1#32 ≠ s'.nblk) := by decide

theorem witness_FormatStep :
    let s := { hashing with phase := .format }
    s.busy = true ∧ s.phase = .format := by decide

theorem witness_IdleSequencerChangesNothing : loaded.busy = false := by decide

theorem witness_ResetClearsEverythingButMsg :
    (withInput hashing (.reset none)).inputs = .reset none :: [] ∧
    (withInput hashing (.reset (some (.read 0x008#32)))).inputs = .reset (some (.read 0x008#32)) :: [] ∧
    (withInput hashing (.reset (some (.write 0x004#32 0x2#32 0b1111#4)))).inputs =
      .reset (some (.write 0x004#32 0x2#32 0b1111#4)) :: [] ∧ (0x004#32 : Word).toNat % 4 = 0 := by decide

/-- A completed step of each kind: INIT accepted, FOLD, reset. -/
theorem witness_OnlyThreeThingsAndResetWriteH :
    (∃ t, step (withInput loaded (issue .init)) = .next t) ∧
    (∃ t, step { hashing with phase := .fold } = .next t) ∧
    (∃ t, step (withInput hashing (.reset none)) = .next t) := ⟨⟨_, rfl⟩, ⟨_, rfl⟩, ⟨_, rfl⟩⟩

theorem witness_DatapathWriters :
    (∃ t, step { hashing with phase := .round } = .next t) ∧ (∃ t, step hashing = .next t) ∧
    (∃ t, step { hashing with phase := .format } = .next t) := ⟨⟨_, rfl⟩, ⟨_, rfl⟩, ⟨_, rfl⟩⟩

theorem witness_BusyAndDoneWriters :
    (∃ t, step (withInput finished (issue .hash)) = .next t ∧ t.busy ≠ finished.busy ∧ t.done ≠ finished.done) ∧
    (∃ t, step { hashing with phase := .format } = .next t ∧ t.busy ≠ hashing.busy ∧ t.done ≠ hashing.done) :=
  ⟨⟨_, rfl, by decide, by decide⟩, ⟨_, rfl, by decide, by decide⟩⟩

/-- One error of each kind, and CLRERR. -/
theorem witness_ErrorBitWriters :
    (∃ t, step (withInput hashing (issue .nop)) = .next t ∧ hashing.errBusy = false ∧ t.errBusy = true) ∧
    (∃ t, step (withInput loaded (wr 0x004#32 0x3#32)) = .next t ∧ loaded.errCmd = false ∧ t.errCmd = true) ∧
    (∃ t, step (withInput { loaded with len := 0x1001#64 } (issue .hash)) = .next t ∧ t.errLen = true) ∧
    (∃ t, step (withInput hashing (wr 0x00C#32 0x5#32)) = .next t ∧ hashing.errWr = false ∧ t.errWr = true) ∧
    (∃ t, step (withInput { loaded with errWr := true } clrErr) = .next t ∧ t.errWr = false) :=
  ⟨⟨_, rfl, rfl, rfl⟩, ⟨_, rfl, rfl, rfl⟩, ⟨_, rfl, rfl⟩, ⟨_, rfl, rfl, rfl⟩, ⟨_, rfl, rfl⟩⟩

theorem witness_MessageAndLengthWriters :
    (∃ t, step (withInput loaded (wr 0x00010FFC#32 0x1#32)) = .next t) ∧
    (∃ t, step (withInput loaded (wr 0x010#32 0x1#32)) = .next t) ∧
    (∃ t, step (withInput loaded (.reset none)) = .next t) := ⟨⟨_, rfl⟩, ⟨_, rfl⟩, ⟨_, rfl⟩⟩

theorem witness_TransactionsWhileBusyLeaveTheHashAlone :
    hashing.busy = true ∧ (∃ t, transact hashing (.write 0x004#32 0x1#32 0b1111#4) = .next t) ∧
    (∃ t, transact hashing (.read 0x200#32) = .next t) := ⟨rfl, ⟨_, rfl⟩, ⟨_, rfl⟩⟩

theorem witness_FinishedDigestStays :
    let s := withInput finished (issue .nop)
    s.busy = false ∧ s.done = true ∧ (∃ t, step s = .next t) ∧ ¬ ResetTurn s ∧ ¬ AcceptedTurn s := by
  refine ⟨rfl, rfl, ⟨_, rfl⟩, ?_, ?_⟩
  · rintro ⟨p, h⟩; cases h
  · rintro ⟨_, ⟨d, b, ⟨h, _⟩, e⟩ | ⟨⟨d, b, ⟨h, _⟩, e⟩, _⟩⟩ <;> cases h <;> revert e <;> decide

theorem witness_BothOrdersAtFormatAreAdmitted :
    ∃ s, Inv s ∧ s.phase = .format := ⟨formatting ivRom ivRom loaded.w, formatting_inv _ _ _, rfl⟩

theorem witness_EveryStepKeepsInvariant :
    Inv hashing ∧ (∃ t, step hashing = .next t) ∧ Inv loaded := ⟨hashing_inv, ⟨_, rfl⟩, loaded_inv⟩

theorem witness_EveryStepKeepsHashProgress :
    (Inv hashing ∧ HashProgress hashing ∧ ∃ t, step hashing = .next t) ∧
    (∃ h v w, Inv (formatting h v w) ∧ HashProgress (formatting h v w) ∧ ∃ t, step (formatting h v w) = .next t) := by
  obtain ⟨h, v, w, hp⟩ := formatting_progress
  exact ⟨⟨hashing_inv, hashing_progress, _, rfl⟩, h, v, w, formatting_inv h v w, hp, _, rfl⟩

theorem witness_OnlyUnwrittenReadsStop :
    Inv hashing ∧ Written hashing ∧ SequencerTurn hashing ∧
    (Inv hashingUnwritten ∧ ∃ f, step hashingUnwritten = .fault f) :=
  ⟨hashing_inv, hashing_written, .inl rfl, hashingUnwritten_inv, _, rfl⟩

theorem witness_MicroStepsCountDown :
    (Inv hashing ∧ hashing.busy = true ∧ ∃ t, microStep hashing = .next t) ∧
    (∃ s, Inv s ∧ s.busy = true ∧ remaining s = 1 ∧ ∃ t, microStep s = .next t) :=
  ⟨⟨hashing_inv, rfl, _, rfl⟩, formatting ivRom ivRom loaded.w, formatting_inv _ _ _, rfl, rfl, _, rfl⟩

theorem witness_FormatDeliversTheDigest :
    ∃ s t, Inv s ∧ HashProgress s ∧ s.phase = .format ∧ microStep s = .next t := by
  obtain ⟨h, v, w, hp⟩ := formatting_progress
  exact ⟨_, _, formatting_inv h v w, hp, rfl, rfl⟩

theorem witness_AcceptedHashDeliversTheDigest :
    Inv loaded ∧ loaded.busy = false ∧ loaded.len.toNat ≤ loaded.config.msgCap.toNat ∧ Written loaded ∧
    loaded.inputs = [] ∧ ∃ t, exec .hash loaded = .next t :=
  ⟨loaded_inv, rfl, by decide, loaded_written, rfl, _, rfl⟩

/-- A poll of STATUS, a discarded write and a lost command before the 130 micro-steps, and FORMAT after them. -/
theorem witness_InterleavedHashDeliversTheDigest :
    let ins := [rd 0x008#32, wr 0x00C#32 0x5#32, issue .init] ++ List.replicate 130 .sequencer
    let s := { loaded with inputs := ins ++ [.sequencer] }
    Inv s ∧ s.busy = false ∧ s.len.toNat ≤ s.config.msgCap.toNat ∧ Written s ∧ s.inputs = ins ++ .sequencer :: [] ∧
    ins.count .sequencer = 130 * ((s.len.toNat + 72) / 64) ∧ (∀ p, .reset p ∉ ins) ∧
    (∀ a, .bus (.read a) ∈ ins → a.toNat % 4 = 0 → InMsgWindow s a →
      ∀ i < 4, (s.msg.read (a.toNat - 0x00010000 + i)).isSome) ∧
    ∃ t, exec .hash s = .next t := by
  refine ⟨?_, rfl, by decide, loaded_written, rfl, by decide +kernel, ?_, ?_, _, rfl⟩
  · constructor <;> first | exact loaded_inv.configLegal | decide
  · simp [rd, wr, wrStrobe, issue]
  · intro a ha _ hw
    simp only [rd, wr, wrStrobe, issue, List.mem_append, List.mem_cons, List.mem_replicate, List.not_mem_nil,
      Input.bus.injEq, Txn.read.injEq, reduceCtorEq, and_false, or_false] at ha
    subst ha
    exact absurd hw.1 (by decide)

/-- The same message in two machines that differ in the results of an earlier HASH and in a byte above LEN. -/
theorem witness_EndStateDependsOnTheMessageOnly :
    let s' := { loaded with msg := loaded.msg ++ [(3, 0xFF#8)], h := ivRom, errCmd := true }
    Inv loaded ∧ Inv s' ∧ loaded.busy = false ∧ s'.busy = false ∧
    loaded.len.toNat ≤ loaded.config.msgCap.toNat ∧ s'.len.toNat ≤ s'.config.msgCap.toNat ∧ Written loaded ∧ Written s' ∧
    loaded.inputs = [] ∧ s'.inputs = [] ∧ loaded.len = s'.len ∧
    (∀ j < loaded.len.toNat, loaded.msg.read j = s'.msg.read j) ∧
    (∃ t, exec .hash loaded = .next t) ∧ ∃ t, exec .hash s' = .next t := by
  refine ⟨loaded_inv, ?_, rfl, rfl, by decide, by decide, loaded_written, ?_, rfl, rfl, rfl, by decide, ⟨_, rfl⟩, _, rfl⟩
  · constructor <;> decide
  · unfold Written; decide

/-- The empty message, and one with a partial last word. -/
theorem witness_HostProcedureComputesSha256 :
    (∃ s, Inv s ∧ s.busy = false ∧ ([] : List Byte).length ≤ s.config.msgCap.toNat ∧ s.inputs = hashInputs []) ∧
    (∃ s, Inv s ∧ s.busy = false ∧ [0x61#8, 0x62#8, 0x63#8].length ≤ s.config.msgCap.toNat ∧
      s.inputs = hashInputs [0x61#8, 0x62#8, 0x63#8]) := by
  refine ⟨⟨{ loaded with inputs := hashInputs [] }, ?_, rfl, by decide, rfl⟩,
    ⟨{ loaded with inputs := hashInputs [0x61#8, 0x62#8, 0x63#8] }, ?_, rfl, by decide, rfl⟩⟩ <;>
    constructor <;> first | exact loaded_inv.configLegal | decide

end Sys2Proof.Tests
end

section
/-!
SUPPORT. One completed step as one of thirteen named effects, each with the turn that causes it: `step_effect` is
`step_next` with the sequencer's and the commands' cases named, and every whole-machine statement is a case analysis
over it.
-/

namespace Sys2Proof.Safety

open Sys2Proof.Machine

/-- The state a turn of `s` acts on: it differs from `s` in the model's own fields only. -/
structure TurnState (s s0 : State) : Prop extends SameComputation s s0, SameErrors s s0 where
  config : s0.config = s.config

/-- The next turn is the sequencer's micro-step of phase `p`. -/
structure MicroTurn (s : State) (p : Phase) : Prop where
  turn : SequencerTurn s
  busy : s.busy = true
  phase : s.phase = p

/-- What the next turn is when it raises an error (60_exceptions.md R242 to R245). -/
def RejectCause (s : State) : ErrBit → Prop
  | .cmd => s.busy = false ∧ ∃ d b r, WriteTurn s 0x00000004#32 d b ∧ decode (effective d b) = .error r
  | .busy => s.busy = true ∧ ∃ d b, WriteTurn s 0x00000004#32 d b
  | .len => s.busy = false ∧ CommandTurn s .hash ∧ s.config.msgCap.toNat < s.len.toNat
  | .wr => s.busy = true ∧
      ∃ a d b, WriteTurn s a d b ∧ (a = 0x0000000C#32 ∨ a = 0x00000010#32 ∨ InMsgWindow s a)

/-- What a completed step of `s`, acting on `s0`, can end in. -/
inductive Effect (s s0 : State) : State → Prop
  | nothing : Effect s s0 s0
  | sched (x : Word) : MicroTurn s .sched → Effect s s0 (schedNext (storeW s0 s0.seqStep x))
  | loadwv : MicroTurn s .loadwv → Effect s s0 (loadwvNext (loadWv s0))
  | round : MicroTurn s .round → Effect s s0 (roundNext (roundStep s0 s0.seqStep))
  | fold : MicroTurn s .fold → Effect s s0 (foldNext (foldStep s0))
  | format : MicroTurn s .format → Effect s s0 (formatNext (formatStep s0))
  | reset (p : Option Txn) : ResetTurn s → Effect s s0 (resetStep s0 p)
  | rejected (e : ErrBit) : RejectCause s e → Effect s s0 (reject s0 e)
  | init : s.busy = false → CommandTurn s .init → Effect s s0 (initExec s0)
  | hash : s.busy = false → CommandTurn s .hash → s.len.toNat ≤ s.config.msgCap.toNat → Effect s s0 (hashAccept s0)
  | errorsCleared (d : Word) (b : Strobe) (w : Word) : WriteTurn s 0x00000008#32 d b → Effect s s0 (clearErrors s0 w)
  | lenStored (a d : Word) (b : Strobe) (x : DWord) : s.busy = false → WriteTurn s a d b →
      (a = 0x0000000C#32 ∨ a = 0x00000010#32) → Effect s s0 { s0 with len := x }
  | msgStored (a d : Word) (b : Strobe) : s.busy = false → WriteTurn s a d b → InMsgWindow s a →
      Effect s s0 (storeMsg s0 (a.toNat - msgBase) d b)

/-- A completed turn of the sequencer has one of the micro-steps' effects, or none. -/
theorem Effect.of_microStep {s s0 t : State} (h0 : TurnState s s0) (hs : SequencerTurn s)
    (h : microStep s0 = .next t) : Effect s s0 t := by
  have turn {p : Phase} (hb : s0.busy = true) (hp : s0.phase = p) : MicroTurn s p :=
    ⟨hs, h0.busy ▸ hb, h0.phase ▸ hp⟩
  rcases microStep_next h with ⟨_, rfl⟩ | ⟨hb, hp, _, x, _, rfl⟩ | ⟨hb, hp, _, rfl⟩ | ⟨hb, hp, rfl⟩ |
    ⟨hb, hp, rfl⟩ | ⟨hb, hp, rfl⟩ | ⟨hb, hp, rfl⟩
  · exact .nothing
  · exact .sched x (turn hb hp)
  · exact .sched _ (turn hb hp)
  · exact .loadwv (turn hb hp)
  · exact .round (turn hb hp)
  · exact .fold (turn hb hp)
  · exact .format (turn hb hp)

/-- A completed write of CTRL is a rejection, an accepted command, or a NOP. -/
theorem Effect.of_command {s s0 t : State} (h0 : TurnState s s0) {d : Word} {b : Strobe}
    (hw : WriteTurn s 0x00000004#32 d b) (h : command s0 (effective d b) = .next t) : Effect s s0 t := by
  have hc := command_cases s0 (effective d b)
  simp only [h0.busy, h0.len, h0.config, h, Host.Outcome.next.injEq] at hc
  rcases hc with ⟨hb, rfl⟩ | ⟨hb, ⟨r, hr⟩, rfl⟩ | ⟨_, _, rfl⟩ | ⟨hb, he, rfl⟩ | ⟨hb, he, hl, rfl⟩ | ⟨hb, he, hl, rfl⟩
  · exact .rejected .busy ⟨hb, d, b, hw⟩
  · exact .rejected .cmd ⟨hb, d, b, r, hw, hr⟩
  · exact .nothing
  · exact .init hb ⟨d, b, hw, he⟩
  · exact .rejected .len ⟨hb, ⟨d, b, hw, he⟩, hl⟩
  · exact .hash hb ⟨d, b, hw, he⟩ hl

/-- Every completed step has one of the effects. -/
theorem step_effect {s t : State} (h : step s = .next t) : ∃ s0, TurnState s s0 ∧ Effect s s0 t := by
  obtain ⟨s0, hcomp, herr, hcfg, hc⟩ := step_next h
  have h0 : TurnState s s0 := { hcomp, herr with config := hcfg }
  refine ⟨s0, h0, ?_⟩
  rcases hc with ⟨hs, h⟩ | ⟨hr, p, rfl⟩ | rfl | ⟨d, b, hw, h⟩ | ⟨d, b, hw, rfl⟩ |
    ⟨d, b, hw, ⟨hb, rfl⟩ | ⟨hb, rfl⟩⟩ | ⟨d, b, hw, ⟨hb, rfl⟩ | ⟨hb, rfl⟩⟩ | ⟨a, d, b, hw, hm, ⟨hb, rfl⟩ | ⟨hb, rfl⟩⟩
  · exact .of_microStep h0 hs h
  · exact .reset p hr
  · exact .nothing
  · exact .of_command h0 hw h
  · exact .errorsCleared d b _ hw
  · exact .rejected .wr ⟨hb, _, d, b, hw, .inl rfl⟩
  · exact .lenStored _ d b _ hb hw (.inl rfl)
  · exact .rejected .wr ⟨hb, _, d, b, hw, .inr (.inl rfl)⟩
  · exact .lenStored _ d b _ hb hw (.inr rfl)
  · exact .rejected .wr ⟨hb, a, d, b, hw, .inr (.inr hm)⟩
  · exact .msgStored a d b hb hw hm

end Sys2Proof.Safety
end

section
/-!
SUPPORT. Every effect of a step keeps the invariant; with it O52, and O51 for the reset state.
-/

namespace Sys2Proof.Safety

open Sys2Proof.Machine

theorem TurnState.eq {s s0 : State} (h0 : TurnState s s0) :
    s0 = { s with inputs := s0.inputs, response := s0.response, draws := s0.draws } := by
  obtain ⟨⟨_, _, _, _, _, _, _, _, _, _, _, _⟩, ⟨_, _, _, _⟩, _⟩ := h0
  cases s0
  simp_all

/-- The invariant speaks of nothing a turn changes as it begins. -/
theorem Inv.turnState {s s0 : State} (hi : Inv s) (h0 : TurnState s s0) : Inv s0 := by
  rw [h0.eq]
  exact { hi with }

/-! ### Bus and commands -/

theorem Inv.reject {s : State} (hi : Inv s) (e : ErrBit) : Inv (reject s e) := by
  cases e <;> exact { hi with }

theorem Inv.clearErrors {s : State} (hi : Inv s) (d : Word) : Inv (clearErrors s d) := { hi with }

/-- LEN is bound to the other registers while BUSY = 1 only. -/
theorem Inv.setLen {s : State} (hi : Inv s) (hb : s.busy = false) (x : DWord) : Inv { s with len := x } :=
  { hi with
    lenFits := fun h => absurd (hb.symm.trans h) Bool.false_ne_true
    nblkRunning := fun h => absurd (hb.symm.trans h) Bool.false_ne_true }

/-- A word of the message memory's window ends below MSG_CAP, a multiple of 4. -/
theorem Inv.storeMsg {s : State} (hi : Inv s) {a : Word} (ha : a.toNat % 4 = 0) (hw : InMsgWindow s a) (d : Word)
    (b : Strobe) : Inv (storeMsg s (a.toNat - msgBase) d b) :=
  { hi with
    msgWf := writeLanes_wf hi.msgWf _ _ _
    msgInCap := by
      intro c hc
      rcases mem_writeLanes hc with ⟨_, hlt⟩ | hc
      · obtain ⟨hmod, _, _⟩ := hi.configLegal
        obtain ⟨hlo, hhi⟩ := hw
        show c.1 < s.config.msgCap.toNat
        have : msgBase = 65536 := rfl
        omega
      · exact hi.msgInCap c hc }

/-- An idle core that holds no result meets the invariant, over the same memory and parameters. -/
theorem Inv.of_cleared {s t : State} (hi : Inv s) (hconfig : t.config = s.config) (hmsg : t.msg = s.msg)
    (hphase : t.phase = .idle) (hstep : t.seqStep = 0#6) (hbusy : t.busy = false) (hdone : t.done = false)
    (hnblk : t.nblk = 0#32) (hblk : t.blkCnt = 0#32) (hhex : t.hex = Vector.replicate 64 0x00#8) : Inv t where
  configLegal := hconfig ▸ hi.configLegal
  msgWf := hmsg ▸ hi.msgWf
  msgInCap := hconfig ▸ hmsg ▸ hi.msgInCap
  busyActive := by simp [hbusy, hphase, Phase.active]
  phaseUsed := by simp [hphase]
  stepZero := fun _ _ => hstep
  notBoth := fun _ => hdone
  lenFits := by simp [hbusy]
  nblkRunning := by simp [hbusy]
  nblkBound := by simp [hnblk]
  blkRunning := by simp [hphase]
  blkEnd := fun _ => hblk.trans hnblk.symm
  hexMeaning := by simp [hdone, hhex]

theorem Inv.resetStep {s : State} (hi : Inv s) (p : Option Txn) : Inv (resetStep s p) := by
  apply hi.of_cleared <;> simp

theorem Inv.initExec {s : State} (hi : Inv s) (hb : s.busy = false) : Inv (initExec s) := by
  apply hi.of_cleared <;> simp [hb]

/-- The block count of a length that fits is not truncated (10_state.md R29). -/
theorem nblk_of_fits {s : State} (hl : s.len.toNat ≤ s.config.msgCap.toNat) :
    (BitVec.ofNat 32 (nblkOf s.len)).toNat = nblkOf s.len := by
  have := s.config.msgCap.isLt
  rw [BitVec.toNat_ofNat, nblkOf]
  omega

theorem Inv.hashAccept {s : State} (hi : Inv s) (hl : s.len.toNat ≤ s.config.msgCap.toNat) :
    Inv (hashAccept s) where
  configLegal := hi.configLegal
  msgWf := hi.msgWf
  msgInCap := hi.msgInCap
  busyActive := rfl
  phaseUsed := by simp
  stepZero := fun _ _ => rfl
  notBoth := fun _ => rfl
  lenFits := fun _ => hl
  nblkRunning := fun _ => nblk_of_fits hl
  nblkBound := by
    rw [hashAccept_nblk, nblk_of_fits hl]
    exact Nat.div_le_div_right (Nat.add_le_add_right hl 72)
  blkRunning := fun _ => by
    rw [hashAccept_nblk, nblk_of_fits hl]
    exact Nat.div_pos (Nat.le_add_left_of_le (by decide)) (by decide)
  blkEnd := by simp
  hexMeaning := rfl

/-! ### The sequencer -/

/-- STEP is free in the phases with steps. -/
theorem Inv.setStep {s : State} (hi : Inv s) (hp : s.phase = .sched ∨ s.phase = .round) (x : BitVec 6) :
    Inv { s with seqStep := x } :=
  { hi with stepZero := fun hs hr => absurd hp (not_or.2 ⟨hs, hr⟩) }

/-- The sequencer moves between the phases of one block. -/
theorem Inv.setPhase {s : State} (hi : Inv s) (hs : s.phase = .sched ∨ s.phase = .loadwv ∨ s.phase = .round)
    {p : Phase} (hp : p = .loadwv ∨ p = .round ∨ p = .fold) : Inv { s with phase := p, seqStep := 0#6 } := by
  have hb : s.busy = true := by
    rw [hi.busyActive]
    rcases hs with h | h | h <;> rw [h] <;> rfl
  have hblk : s.blkCnt.toNat < s.nblk.toNat := hi.blkRunning (by tauto)
  exact { hi with
    busyActive := by rcases hp with rfl | rfl | rfl <;> exact hb
    phaseUsed := by rcases hp with rfl | rfl | rfl <;> simp
    stepZero := fun _ _ => rfl
    blkRunning := fun _ => hblk
    blkEnd := by rcases hp with rfl | rfl | rfl <;> simp }

theorem Inv.schedNext {s : State} (hi : Inv s) (hp : s.phase = .sched) : Inv (schedNext s) := by
  rcases Nat.lt_or_eq_of_le (Nat.le_of_lt_succ s.seqStep.isLt) with h | h
  · rw [schedNext_more h]
    exact hi.setStep (.inl hp) _
  · rw [schedNext_last h]
    exact hi.setPhase (.inl hp) (.inl rfl)

theorem Inv.loadwvNext {s : State} (hi : Inv s) (hp : s.phase = .loadwv) : Inv (loadwvNext s) :=
  hi.setPhase (.inr (.inl hp)) (.inr (.inl rfl))

theorem Inv.roundNext {s : State} (hi : Inv s) (hp : s.phase = .round) : Inv (roundNext s) := by
  rcases Nat.lt_or_eq_of_le (Nat.le_of_lt_succ s.seqStep.isLt) with h | h
  · rw [roundNext_more h]
    exact hi.setStep (.inr hp) _
  · rw [roundNext_last h]
    exact hi.setPhase (.inr (.inr hp)) (.inr (.inr rfl))

/-- FOLD goes on with the next block while blocks are left; H may change since HEX is zeros while BUSY = 1. -/
theorem Inv.fold {s : State} (hi : Inv s) (hp : s.phase = .fold) : Inv (foldNext (foldStep s)) := by
  have hb : s.busy = true := by rw [hi.busyActive, hp]; rfl
  have hd := hi.notBoth hb
  have hblk := hi.blkRunning (.inr (.inr (.inr hp)))
  have hhex : s.hex = Vector.replicate 64 0x00#8 := by simpa [hd] using hi.hexMeaning
  have hleft (hl : s.blkCnt + 1#32 ≠ s.nblk) : (s.blkCnt + 1#32).toNat < s.nblk.toNat := by
    have hne := mt BitVec.eq_of_toNat_eq hl
    rw [blkCnt_succ hblk] at hne ⊢
    omega
  by_cases hl : s.blkCnt + 1#32 = s.nblk
  · exact { hi with
      busyActive := by simp [hb, hl, Phase.active]
      phaseUsed := by simp [hl]
      stepZero := fun _ _ => rfl
      blkRunning := by simp [hl]
      blkEnd := fun _ => hl
      hexMeaning := by simpa [hd] using hhex }
  · exact { hi with
      busyActive := by simp [hb, hl, Phase.active]
      phaseUsed := by simp [hl]
      stepZero := fun _ _ => rfl
      blkRunning := fun _ => hleft hl
      blkEnd := by simp [hl]
      hexMeaning := by simpa [hd] using hhex }

/-- FORMAT sets DONE as it writes the formatted H. -/
theorem Inv.format {s : State} (hi : Inv s) (hp : s.phase = .format) : Inv (formatNext (formatStep s)) := by
  unfold formatStep
  generalize hd : hexDigits s.h = digits
  exact { hi with
    busyActive := rfl
    phaseUsed := by simp
    stepZero := fun _ _ => rfl
    notBoth := by simp
    lenFits := by simp
    nblkRunning := by simp
    blkRunning := by simp
    blkEnd := fun _ => hi.blkEnd (.inr hp)
    hexMeaning := by simp [hd] }

/-- Every effect of a step keeps the invariant; what LOADW, EXPANDW, LOADWV and ROUND write is no part of it. -/
theorem Inv.effect {s s0 t : State} (hi : Inv s) (h0 : TurnState s s0) (he : Effect s s0 t) : Inv t := by
  have hi0 := hi.turnState h0
  cases he with
  | nothing => exact hi0
  | sched x hm => exact Inv.schedNext { hi0 with } (h0.phase.trans hm.phase)
  | loadwv hm => exact Inv.loadwvNext { hi0 with } (h0.phase.trans hm.phase)
  | round hm => exact Inv.roundNext { hi0 with } (h0.phase.trans hm.phase)
  | fold hm => exact hi0.fold (h0.phase.trans hm.phase)
  | format hm => exact hi0.format (h0.phase.trans hm.phase)
  | reset p => exact hi0.resetStep p
  | rejected e => exact hi0.reject e
  | init hb => exact hi0.initExec (h0.busy.trans hb)
  | hash _ _ hl => exact hi0.hashAccept (by rw [h0.len, h0.config]; exact hl)
  | errorsCleared d b w => exact hi0.clearErrors w
  | lenStored a d b x hb => exact hi0.setLen (h0.busy.trans hb) x
  | msgStored a d b _ hw hm =>
    obtain ⟨_, ha, _⟩ := hw
    exact hi0.storeMsg ha (by rw [InMsgWindow, h0.config]; exact hm) d b

/-- Settles O52: each effect of a completed step keeps `Inv`. -/
theorem everyStepKeepsInvariant : Obligations.EveryStepKeepsInvariant := by
  intro s t hi h
  obtain ⟨s0, h0, he⟩ := step_effect h
  exact hi.effect h0 he

/-- Settles O51: each clause is a decidable fact of the one reset state. -/
theorem resetStateMeetsInvariant : Obligations.ResetStateMeetsInvariant := by
  unfold Obligations.ResetStateMeetsInvariant
  constructor <;> decide

end Sys2Proof.Safety
end

section
/-!
SUPPORT. What writes each register and flag (10_state.md): one case analysis over the effects of a step for each
statement, in which every effect that is not named leaves the element as it was.
-/

namespace Sys2Proof.Safety

open Sys2Proof.Machine

theorem acceptedTurn_of_init {s : State} (hb : s.busy = false) (hc : CommandTurn s .init) : AcceptedTurn s :=
  ⟨hb, .inl hc⟩

theorem acceptedTurn_of_hash {s : State} (hb : s.busy = false) (hc : CommandTurn s .hash)
    (hl : s.len.toNat ≤ s.config.msgCap.toNat) : AcceptedTurn s := ⟨hb, .inr ⟨hc, hl⟩⟩

/-- Settles O42, by cases on the effect of the step. -/
theorem onlyThreeThingsAndResetWriteH : Obligations.OnlyThreeThingsAndResetWriteH := by
  intro s t h
  obtain ⟨s0, h0, he⟩ := step_effect h
  cases he with
  | init hb hc => exact .inr (.inl ⟨acceptedTurn_of_init hb hc, rfl⟩)
  | hash hb hc hl => exact .inr (.inl ⟨acceptedTurn_of_hash hb hc hl, rfl⟩)
  | fold hm => exact .inr (.inr (.inl ⟨hm.turn, hm.busy, hm.phase, fun k => by simp [foldWords, add32, h0.h, h0.wv]⟩))
  | reset p hr => exact .inr (.inr (.inr ⟨hr, by simp⟩))
  | _ => exact .inl (by simp [h0.h])

/-- Settles O43, by cases on the effect of the step. -/
theorem datapathWriters : Obligations.DatapathWriters := by
  intro s t h
  obtain ⟨s0, h0, he⟩ := step_effect h
  cases he with
  | sched x hm => simp [h0.wv, h0.hex, hm.turn, hm.busy, hm.phase]
  | loadwv hm => simp [h0.w, h0.hex, hm.turn, hm.busy, hm.phase]
  | round hm => simp [h0.w, h0.hex, hm.turn, hm.busy, hm.phase]
  | format hm => simp [h0.w, h0.wv, hm.turn, hm.busy, hm.phase]
  | reset p hr => simp [hr]
  | init hb hc => simp [h0.wv, h0.w, acceptedTurn_of_init hb hc]
  | hash hb hc hl => simp [h0.wv, h0.w, acceptedTurn_of_hash hb hc hl]
  | _ => simp [h0.wv, h0.w, h0.hex]

/-- Settles O44, by cases on the effect of the step. -/
theorem busyAndDoneWriters : Obligations.BusyAndDoneWriters := by
  intro s t h
  obtain ⟨s0, h0, he⟩ := step_effect h
  cases he with
  | format hm =>
    exact ⟨fun _ => .inr ⟨rfl, .inr ⟨hm.turn, hm.phase⟩⟩, fun _ => .inl ⟨rfl, hm.turn, hm.busy, hm.phase⟩⟩
  | reset p hr => exact ⟨fun _ => .inr ⟨by simp, .inl hr⟩, fun _ => .inr ⟨by simp, .inl hr⟩⟩
  | init hb hc => exact ⟨fun h => absurd h0.busy h, fun _ => .inr ⟨rfl, .inr (acceptedTurn_of_init hb hc)⟩⟩
  | hash hb hc hl =>
    have ha := acceptedTurn_of_hash hb hc hl
    exact ⟨fun _ => .inl ⟨rfl, ha, hc⟩, fun _ => .inr ⟨rfl, .inr ha⟩⟩
  | _ => simp [h0.busy, h0.done]

/-- Settles O46, by cases on the effect of the step. -/
theorem messageAndLengthWriters : Obligations.MessageAndLengthWriters := by
  intro s t h
  obtain ⟨s0, h0, he⟩ := step_effect h
  cases he with
  | reset p hr => simp [h0.msg, h0.config, hr]
  | lenStored a d b x hb hw ha => exact ⟨.inl h0.msg, .inr (.inr ⟨hb, a, d, b, hw, ha⟩), h0.config⟩
  | msgStored a d b hb hw hm => exact ⟨.inr ⟨hb, a, d, b, hw, hm⟩, .inl h0.len, h0.config⟩
  | _ => simp [h0.msg, h0.len, h0.config]

/-- The error bit of a cause. -/
def errBit (s : State) : ErrBit → Bool
  | .cmd => s.errCmd
  | .busy => s.errBusy
  | .len => s.errLen
  | .wr => s.errWr

theorem errBit_reject (s : State) (e e' : ErrBit) : errBit (reject s e) e' = (errBit s e' || decide (e = e')) := by
  cases e' <;> simp [errBit]

theorem TurnState.errBit {s s0 : State} (h0 : TurnState s s0) (e : ErrBit) : errBit s0 e = errBit s e := by
  cases e
  · exact h0.errCmd
  · exact h0.errBusy
  · exact h0.errLen
  · exact h0.errWr

/-- A bit that a STATUS write leaves set was set before. -/
theorem errBit_clearErrors {s : State} {d : Word} {e : ErrBit} (h : errBit (clearErrors s d) e = true) :
    errBit s e = true := by
  cases e <;> exact (Bool.and_eq_true_iff.1 h).1

theorem errBit_resetStep (s : State) (p : Option Txn) (e : ErrBit) : errBit (resetStep s p) e = false := by
  cases e <;> simp [errBit]

/-- Only a rejection, a STATUS write and a reset touch the error bits. -/
theorem Effect.errBit {s s0 t : State} (he : Effect s s0 t) :
    (∃ e, RejectCause s e ∧ t = reject s0 e) ∨
    (∃ d b w, WriteTurn s 0x00000008#32 d b ∧ t = clearErrors s0 w) ∨
    (ResetTurn s ∧ ∃ p, t = resetStep s0 p) ∨ ∀ e, errBit t e = errBit s0 e := by
  cases he with
  | rejected e hc => exact .inl ⟨e, hc, rfl⟩
  | errorsCleared d b w hw => exact .inr (.inl ⟨d, b, w, hw, rfl⟩)
  | reset p hr => exact .inr (.inr (.inl ⟨hr, p, rfl⟩))
  | _ => exact .inr (.inr (.inr fun e => by cases e <;> simp [Safety.errBit]))

/-- An error bit is set by its own cause only (10_state.md R41). -/
theorem errBit_set {s t : State} (h : step s = .next t) {e : ErrBit} (hs : errBit s e = false)
    (ht : errBit t e = true) : RejectCause s e := by
  obtain ⟨s0, h0, he⟩ := step_effect h
  rw [← h0.errBit] at hs
  rcases he.errBit with ⟨e', hc, rfl⟩ | ⟨_, _, w, _, rfl⟩ | ⟨_, p, rfl⟩ | hsame
  · rw [errBit_reject, hs, Bool.false_or, decide_eq_true_eq] at ht
    exact ht ▸ hc
  · rw [errBit_clearErrors ht] at hs; cases hs
  · rw [errBit_resetStep] at ht; cases ht
  · rw [hsame, hs] at ht; cases ht

/-- An error bit is cleared by a STATUS write or a reset only (10_state.md R41). -/
theorem errBit_cleared {s t : State} (h : step s = .next t) {e : ErrBit} (hs : errBit s e = true)
    (ht : errBit t e = false) : ResetTurn s ∨ ∃ d b, WriteTurn s 0x00000008#32 d b := by
  obtain ⟨s0, h0, he⟩ := step_effect h
  rw [← h0.errBit] at hs
  rcases he.errBit with ⟨e', _, rfl⟩ | ⟨d, b, _, hw, rfl⟩ | ⟨hr, _⟩ | hsame
  · rw [errBit_reject, hs] at ht; cases ht
  · exact .inr ⟨d, b, hw⟩
  · exact .inl hr
  · rw [hsame, hs] at ht; cases ht

/-- Settles O45, from what sets and what clears one error bit. -/
theorem errorBitWriters : Obligations.ErrorBitWriters := by
  intro s t h
  refine ⟨errBit_set h (e := .busy), errBit_set h (e := .cmd), errBit_set h (e := .len), errBit_set h (e := .wr), ?_⟩
  rintro (⟨hs, ht⟩ | ⟨hs, ht⟩ | ⟨hs, ht⟩ | ⟨hs, ht⟩)
  · exact errBit_cleared h (e := .busy) hs ht
  · exact errBit_cleared h (e := .cmd) hs ht
  · exact errBit_cleared h (e := .len) hs ht
  · exact errBit_cleared h (e := .wr) hs ht

/-- Settles O41: the reset values hold by definition, the frame by the laws of the reset step. -/
theorem resetStateValues : Obligations.ResetStateValues :=
  ⟨rfl, rfl, rfl, rfl, rfl, rfl, rfl, rfl, rfl, rfl, rfl, rfl, rfl, rfl, rfl, fun _ => rfl,
    fun s p => ⟨resetStep_msg s p, resetStep_config s p⟩⟩

end Sys2Proof.Safety
end

section
/-! SUPPORT. STATUS, SEQ and LEN as the host reads and writes them. -/

namespace Sys2Proof.Safety

open Sys2Proof.Machine

theorem seqWord_phase (s : State) : (seqWord s).extractLsb' 0 3 = s.phase.code := by
  apply BitVec.eq_of_getLsbD_eq
  intro n hn
  rw [BitVec.getLsbD_extractLsb', Nat.zero_add, seqWord_getLsbD, if_pos hn, decide_eq_true hn, Bool.true_and]

theorem errSignal_eq (s : State) :
    errSignal s =
      ((statusWord s).getLsbD 8 || (statusWord s).getLsbD 9 || (statusWord s).getLsbD 10 ||
        (statusWord s).getLsbD 11) := by
  simp only [statusWord_getLsbD]
  rfl

/-- Settles O15, from the layouts of the two packed words. -/
theorem statusAndSeqLayout : Obligations.StatusAndSeqLayout := by
  intro s
  refine ⟨statusWord s, seqWord s, busRead_of rfl rfl, busRead_of rfl rfl, statusWord_getLsbD s, ?_, ?_, ?_, ?_,
    errSignal_eq s⟩
  · rw [seqWord_phase]
    cases s.phase <;> rfl
  · intro n hn
    rw [seqWord_getLsbD, if_neg (Nat.not_lt.2 hn)]
  · rw [statusWord_getLsbD]; rfl
  · rw [statusWord_getLsbD]; rfl

/-- Settles O16: bits 8 to 11 of the effective data are those of the write where lane 1 is enabled. -/
theorem statusWriteClearsOnes : Obligations.StatusWriteClearsOnes := by
  intro s d wstrb hb
  have hclear : transact s (.write 0x00000008#32 d wstrb) =
      .next (clearErrors (respond s (.write false)) (effective d wstrb)) := busWrite_of rfl hb
  rw [hclear]
  simp only [clearErrors, effective_getLsbD, Bool.and_comm (d.getLsbD _)]
  rfl

/-- Bit n of LEN after a write of LEN_LO. -/
theorem setLenLo_len_getLsbD (s : State) (d : Word) (b : Strobe) (n : Nat) :
    (setLenLo s d b).len.getLsbD n =
      if n < 32 ∧ b.getLsbD (n / 8) = true then d.getLsbD n else s.len.getLsbD n := by
  rw [setLenLo_len, BitVec.getLsbD_append]
  by_cases hn : n < 32
  · rw [if_pos hn, merge_getLsbD _ _ _ _ hn]
    simp [hn]
  · by_cases h64 : n < 64
    · simp [hn, show n - 32 < 32 by omega, show 32 + (n - 32) = n by omega]
    · simp [hn, show ¬ n - 32 < 32 by omega, BitVec.getLsbD_of_ge s.len n (by omega)]

/-- Bit n of LEN after a write of LEN_HI. -/
theorem setLenHi_len_getLsbD (s : State) (d : Word) (b : Strobe) (n : Nat) :
    (setLenHi s d b).len.getLsbD n =
      if 32 ≤ n ∧ b.getLsbD ((n - 32) / 8) = true then d.getLsbD (n - 32) else s.len.getLsbD n := by
  rw [setLenHi_len, BitVec.getLsbD_append]
  by_cases hn : n < 32
  · simp [hn, show ¬ 32 ≤ n by omega]
  · by_cases h64 : n < 64
    · rw [if_neg hn, merge_getLsbD _ _ _ _ (by omega)]
      simp [show n - 32 < 32 by omega, show 32 ≤ n by omega, show 32 + (n - 32) = n by omega]
    · simp [hn, BitVec.getLsbD_of_ge _ (n - 32) (show 32 ≤ n - 32 by omega), BitVec.getLsbD_of_ge s.len n (by omega)]

theorem storeUnlessBusy_idle {s : State} (hb : s.busy = false) (s' : State) : storeUnlessBusy s s' = .next s' := by
  simp [storeUnlessBusy, hb]

/-- Settles O19, bit by bit from the two LEN writes. -/
theorem lenWritesMergeLanes : Obligations.LenWritesMergeLanes := by
  intro s d wstrb hb hs
  refine ⟨⟨_, ?_, setLenLo_len_getLsbD s d wstrb⟩, ⟨_, ?_, setLenHi_len_getLsbD s d wstrb⟩⟩
  · exact (busWrite_of rfl hs).trans
      (storeUnlessBusy_idle (s := respond s (.write false)) hb (setLenLo (respond s (.write false)) d wstrb))
  · exact (busWrite_of rfl hs).trans
      (storeUnlessBusy_idle (s := respond s (.write false)) hb (setLenHi (respond s (.write false)) d wstrb))

end Sys2Proof.Safety
end

section
/-!
SUPPORT. The error bits interfere with nothing (10_state.md R41): every operation takes two states that differ in
error bits and bus response only to two such states, and stops in both for the same reason or in neither.
-/

namespace Sys2Proof.Safety

open Sys2Proof.Machine

/-- `s` with other error bits and another bus response. -/
def withErrors (s : State) (c b l w : Bool) (r : Option Response) : State :=
  { s with errCmd := c, errBusy := b, errLen := l, errWr := w, response := r }

/-- The two states differ in error bits and bus response only. -/
def Alike (s s' : State) : Prop := ∃ c b l w r, s' = withErrors s c b l w r

theorem SameOutcome.of_alike {t t' : State} (h : Alike t t') : SameOutcome (.next t) (.next t') := by
  obtain ⟨_, _, _, _, _, rfl⟩ := h
  exact ⟨by constructor <;> rfl, rfl, rfl⟩

section
variable {s s' : State} (h : Alike s s')
include h

/-- What reads no error bit and no bus response is the same in both. -/
theorem Alike.same {α : Type} (f : State → α) (hf : ∀ c b l w r, f (withErrors s c b l w r) = f s) : f s' = f s := by
  obtain ⟨c, b, l, w, r, rfl⟩ := h
  exact hf c b l w r

/-- An update keeps the two alike if it carries other error bits and another response along. -/
theorem Alike.map (f : State → State) (hf : ∀ c b l w r, Alike (f s) (f (withErrors s c b l w r))) :
    Alike (f s) (f s') := by
  obtain ⟨c, b, l, w, r, rfl⟩ := h
  exact hf c b l w r

/-! ### Operations that several turns share -/

theorem Alike.beginTurn (rest : List Input) : Alike (beginTurn s rest) (beginTurn s' rest) :=
  h.map (Machine.beginTurn · rest) fun _ _ _ _ _ => ⟨_, _, _, _, _, rfl⟩

/-- The bus may answer the two states differently. -/
theorem Alike.respond (r r' : Response) : Alike (respond s r) (respond s' r') := by
  obtain ⟨_, _, _, _, _, rfl⟩ := h
  exact ⟨_, _, _, _, _, rfl⟩

theorem Alike.reject (e : ErrBit) : Alike (reject s e) (reject s' e) :=
  h.map (Machine.reject · e) fun _ _ _ _ _ => by cases e <;> exact ⟨_, _, _, _, _, rfl⟩

theorem Alike.unlessBusy {k : State → Result} (hk : SameOutcome (k s) (k s')) :
    SameOutcome (unlessBusy s k) (unlessBusy s' k) := by
  unfold Machine.unlessBusy
  rw [h.same (·.busy) fun _ _ _ _ _ => rfl]
  split
  · exact .of_alike (h.reject .busy)
  · exact hk

theorem Alike.storeUnlessBusy {t t' : State} (ht : Alike t t') :
    SameOutcome (storeUnlessBusy s t) (storeUnlessBusy s' t') := by
  unfold Machine.storeUnlessBusy
  rw [h.same (·.busy) fun _ _ _ _ _ => rfl]
  split
  · exact .of_alike (h.reject .wr)
  · exact .of_alike ht

/-! ### The sequencer -/

theorem Alike.schedNext : Alike (schedNext s) (schedNext s') := by
  refine h.map Machine.schedNext fun _ _ _ _ _ => ?_
  dsimp only [Machine.schedNext, withErrors]
  split <;> exact ⟨_, _, _, _, _, rfl⟩

theorem Alike.roundNext : Alike (roundNext s) (roundNext s') := by
  refine h.map Machine.roundNext fun _ _ _ _ _ => ?_
  dsimp only [Machine.roundNext, withErrors]
  split <;> exact ⟨_, _, _, _, _, rfl⟩

theorem Alike.storeW (t : BitVec 6) (x : Word) : Alike (Machine.storeW s t x) (Machine.storeW s' t x) :=
  h.map (Machine.storeW · t x) fun _ _ _ _ _ => ⟨_, _, _, _, _, rfl⟩

theorem Alike.schedMicro : SameOutcome (schedMicro s) (schedMicro s') := by
  unfold Machine.schedMicro loadW
  rw [h.same (·.seqStep) fun _ _ _ _ _ => rfl,
    h.same (fun s0 => padWord s0 (wordIndex s0 s.seqStep)) fun _ _ _ _ _ => rfl]
  split
  · cases padWord s (wordIndex s s.seqStep) with
    | ok x => exact .of_alike (h.storeW _ x).schedNext
    | error f => rfl
  · have hexpand : Alike (expandW s s.seqStep) (expandW s' s.seqStep) :=
      h.map (expandW · s.seqStep) fun _ _ _ _ _ => ⟨_, _, _, _, _, rfl⟩
    exact .of_alike hexpand.schedNext

theorem Alike.busyMicro : SameOutcome (busyMicro s) (busyMicro s') := by
  unfold Machine.busyMicro
  rw [h.same (·.phase) fun _ _ _ _ _ => rfl, h.same (·.seqStep) fun _ _ _ _ _ => rfl]
  cases s.phase
  case sched => exact h.schedMicro
  case loadwv => exact .of_alike (h.map (fun s => loadwvNext (loadWv s)) fun _ _ _ _ _ => ⟨_, _, _, _, _, rfl⟩)
  case round =>
    have hround : Alike (roundStep s s.seqStep) (roundStep s' s.seqStep) :=
      h.map (roundStep · s.seqStep) fun _ _ _ _ _ => ⟨_, _, _, _, _, rfl⟩
    exact .of_alike hround.roundNext
  case fold => exact .of_alike (h.map (fun s => foldNext (foldStep s)) fun _ _ _ _ _ => ⟨_, _, _, _, _, rfl⟩)
  case format =>
    exact .of_alike (h.map (fun s => formatNext (formatStep s)) fun c b l w r => ⟨c, b, l, w, r, by
      dsimp only [formatNext, formatStep, withErrors]⟩)
  all_goals rfl

theorem Alike.microStep : SameOutcome (microStep s) (microStep s') := by
  unfold Machine.microStep
  rw [h.same (·.busy) fun _ _ _ _ _ => rfl]
  split
  · exact h.busyMicro
  · exact .of_alike h

/-! ### Commands and transactions -/

theorem Alike.exec (i : Instr) : SameOutcome (exec i s) (exec i s') := by
  cases i with
  | nop => exact h.unlessBusy (.of_alike h)
  | init =>
    have hinit : Alike (initExec s) (initExec s') := h.map initExec fun _ _ _ _ _ => ⟨_, _, _, _, _, rfl⟩
    exact h.unlessBusy (k := fun s => .next (initExec s)) (.of_alike hinit)
  | hash =>
    have haccept : Alike (hashAccept s) (hashAccept s') := h.map hashAccept fun _ _ _ _ _ => ⟨_, _, _, _, _, rfl⟩
    unfold Machine.exec execHash
    apply h.unlessBusy
    rw [h.same (·.config) fun _ _ _ _ _ => rfl, h.same (·.len) fun _ _ _ _ _ => rfl]
    split
    · exact .of_alike (h.reject .len)
    · exact .of_alike haccept

theorem Alike.command (d : Word) : SameOutcome (command s d) (command s' d) := by
  unfold Machine.command
  cases decode d with
  | error => exact h.unlessBusy (.of_alike (h.reject .cmd))
  | ok i => exact h.exec i

theorem Alike.writeLoc (d : Word) (b : Strobe) (l : Loc) : SameOutcome (writeLoc s d b l) (writeLoc s' d b l) := by
  cases l with
  | ctrl => exact h.command _
  | status => exact .of_alike (h.map (clearErrors · _) fun _ _ _ _ _ => ⟨_, _, _, _, _, rfl⟩)
  | lenLo => exact h.storeUnlessBusy (h.map (setLenLo · d b) fun _ _ _ _ _ => ⟨_, _, _, _, _, rfl⟩)
  | lenHi => exact h.storeUnlessBusy (h.map (setLenHi · d b) fun _ _ _ _ _ => ⟨_, _, _, _, _, rfl⟩)
  | msg j => exact h.storeUnlessBusy (h.map (storeMsg · j d b) fun _ _ _ _ _ => ⟨_, _, _, _, _, rfl⟩)
  | _ => exact .of_alike h

/-- STATUS alone reads the error bits, and its read never stops. -/
theorem Alike.readLoc (l : Loc) :
    (∃ v v', readLoc s l = .ok v ∧ readLoc s' l = .ok v') ∨
    (∃ f, readLoc s l = .error f ∧ readLoc s' l = .error f) := by
  by_cases hl : l = .status
  · subst hl
    exact .inl ⟨_, _, rfl, rfl⟩
  · rw [h.same (Machine.readLoc · l) fun _ _ _ _ _ => by
      cases l
      case status => exact absurd rfl hl
      all_goals rfl]
    cases Machine.readLoc s l with
    | ok v => exact .inl ⟨v, v, rfl, rfl⟩
    | error f => exact .inr ⟨f, rfl, rfl⟩

theorem Alike.busRead (a : Word) : SameOutcome (busRead s a) (busRead s' a) := by
  unfold Machine.busRead
  rw [h.same (·.config) fun _ _ _ _ _ => rfl]
  split
  · rcases h.readLoc (locAt s.config.msgCap a) with ⟨v, v', e, e'⟩ | ⟨f, e, e'⟩ <;> rw [e, e']
    · exact .of_alike (h.respond _ _)
    · rfl
  · exact .of_alike (h.respond _ _)

theorem Alike.busWrite (a d : Word) (b : Strobe) : SameOutcome (busWrite s a d b) (busWrite s' a d b) := by
  unfold Machine.busWrite
  rw [h.same (·.config) fun _ _ _ _ _ => rfl]
  split
  · split
    · exact .of_alike (h.respond _ _)
    · exact (h.respond _ _).writeLoc d b _
  · exact .of_alike (h.respond _ _)

/-! ### A turn -/

theorem Alike.takeTurn (e : Input) : SameOutcome (takeTurn s e) (takeTurn s' e) := by
  cases e with
  | sequencer => exact h.microStep
  | bus x =>
    cases x with
    | read a => exact h.busRead a
    | write a d b => exact h.busWrite a d b
  | reset p => exact .of_alike (h.map (resetStep · p) fun _ _ _ _ _ => by cases p <;> exact ⟨_, _, _, _, _, rfl⟩)

theorem Alike.step : SameOutcome (step s) (step s') := by
  unfold Machine.step nextTurn
  rw [h.same (·.inputs) fun _ _ _ _ _ => rfl]
  cases s.inputs with
  | nil => exact (h.beginTurn []).microStep
  | cons e rest => exact (h.beginTurn rest).takeTurn e

end

/-- Settles O47: a step takes states alike up to the error bits to the same outcome. -/
theorem errorBitsDoNotInterfere : Obligations.ErrorBitsDoNotInterfere := by
  intro s e1 e2 e3 e4
  exact Alike.step ⟨e1, e2, e3, e4, s.response, rfl⟩

end Sys2Proof.Safety
end

section
/-!
SUPPORT. What lies at the offsets of the register files, of the message memory and of the reserved ranges
(20_memory.md R65, R68), and what the reads and writes there do.
-/

namespace Sys2Proof.Machine

open Sys2Proof.Safety

/-! ### Offsets of the register files -/

/-- The offset of a file's word `k`, as a number. -/
theorem fileOffset_toNat {n : Nat} (base : Nat) (k : Fin n) (h : base + 4 * n ≤ 2 ^ 32) :
    (BitVec.ofNat 32 (base + 4 * k.val)).toNat = base + 4 * k.val := by
  rw [BitVec.toNat_ofNat, Nat.mod_eq_of_lt (by omega)]

/-- The index a file's offset stands for. -/
theorem fin_ofNat_fileOffset {n : Nat} [NeZero n] (base : Nat) (k : Fin n) :
    Fin.ofNat n ((base + 4 * k.val - base) / 4) = k := by
  rw [Nat.add_sub_cancel_left, Nat.mul_div_cancel_left _ (by decide), Fin.ofNat_val_eq_self]

/-- A file's offset is aligned when its first one is. -/
theorem fileOffset_aligned {n : Nat} {base : Nat} (k : Fin n) (hb : base % 4 = 0) (h : base + 4 * n ≤ 2 ^ 32) :
    (BitVec.ofNat 32 (base + 4 * k.val)).toNat % 4 = 0 := by
  rw [fileOffset_toNat base k h]
  omega

theorem locAt_hFile (cap : Word) (k : Fin 8) : locAt cap (BitVec.ofNat 32 (0x040 + 4 * k.val)) = .h k := by
  simp only [locAt, fileOffset_toNat 0x040 k (by decide)]
  repeat rw [if_neg (by omega)]
  rw [if_pos (by omega), fin_ofNat_fileOffset]

theorem locAt_ivFile (cap : Word) (k : Fin 8) : locAt cap (BitVec.ofNat 32 (0x060 + 4 * k.val)) = .iv k := by
  simp only [locAt, fileOffset_toNat 0x060 k (by decide)]
  repeat rw [if_neg (by omega)]
  rw [if_pos (by omega), fin_ofNat_fileOffset]

theorem locAt_wvFile (cap : Word) (k : Fin 8) : locAt cap (BitVec.ofNat 32 (0x080 + 4 * k.val)) = .wv k := by
  simp only [locAt, fileOffset_toNat 0x080 k (by decide)]
  repeat rw [if_neg (by omega)]
  rw [if_pos (by omega), fin_ofNat_fileOffset]

theorem locAt_hexFile (cap : Word) (n : Fin 16) : locAt cap (BitVec.ofNat 32 (0x100 + 4 * n.val)) = .hex n := by
  simp only [locAt, fileOffset_toNat 0x100 n (by decide)]
  repeat rw [if_neg (by omega)]
  rw [if_pos (by omega), fin_ofNat_fileOffset]

theorem locAt_wFile (cap : Word) (t : Fin 64) : locAt cap (BitVec.ofNat 32 (0x200 + 4 * t.val)) = .w t := by
  simp only [locAt, fileOffset_toNat 0x200 t (by decide)]
  repeat rw [if_neg (by omega)]
  rw [if_pos (by omega), fin_ofNat_fileOffset]

theorem locAt_kFile (cap : Word) (i : Fin 64) : locAt cap (BitVec.ofNat 32 (0x300 + 4 * i.val)) = .k i := by
  simp only [locAt, fileOffset_toNat 0x300 i (by decide)]
  repeat rw [if_neg (by omega)]
  rw [if_pos (by omega), fin_ofNat_fileOffset]

/-! ### The message window and the reserved ranges -/

theorem locAt_msgWindow {s : State} {addr : Word} (h : InMsgWindow s addr) :
    locAt s.config.msgCap addr = .msg (addr.toNat - msgBase) := by
  obtain ⟨hlo, hhi⟩ := h
  rcases locAt_cases s.config.msgCap addr with ⟨rfl, _⟩ | ⟨rfl, _⟩ | ⟨rfl, _⟩ | ⟨rfl, _⟩ | ⟨_, e⟩ |
    ⟨⟨_, _, _, _, hout⟩, _⟩
  · exact absurd hlo (by decide)
  · exact absurd hlo (by decide)
  · exact absurd hlo (by decide)
  · exact absurd hlo (by decide)
  · exact e
  · exact absurd ⟨hlo, hhi⟩ hout

/-- No register of the first 64 bytes lies above CAP. -/
theorem controlLoc_reserved {o : Nat} (h : 0x024 ≤ o) : controlLoc o = .reserved := by
  unfold controlLoc
  simp only [show ∀ n < 0x024, o ≠ n from fun n hn => by omega, Nat.reduceLT, if_false]

theorem locAt_reserved {s : State} {addr : Word} (h : Reserved s addr) :
    locAt s.config.msgCap addr = .reserved := by
  have hbase : msgBase = 0x00010000 := rfl
  simp only [locAt]
  rcases h with ⟨hlo, hhi⟩ | ⟨hlo, hhi⟩ | ⟨hlo, hhi⟩ | ⟨hlo, hhi⟩ | hlo
  · rw [if_pos (by omega), controlLoc_reserved hlo]
  all_goals
    repeat rw [if_neg (by omega)]

/-! ### Message reads -/

/-- The offset of message index `j`, for a legal MSG_CAP above it, as a number. -/
theorem msgOffset_toNat {s : State} {j : Nat} (hc : s.config.Legal) (hj : j < s.config.msgCap.toNat) :
    (BitVec.ofNat 32 (0x00010000 + j)).toNat = 0x00010000 + j := by
  obtain ⟨_, _, hmax⟩ := hc
  rw [BitVec.toNat_ofNat, Nat.mod_eq_of_lt (by omega)]

theorem locAt_msgOffset {s : State} {j : Nat} (hc : s.config.Legal) (hj : j < s.config.msgCap.toNat) :
    locAt s.config.msgCap (BitVec.ofNat 32 (0x00010000 + j)) = .msg j := by
  have hn := msgOffset_toNat hc hj
  have hw : InMsgWindow s (BitVec.ofNat 32 (0x00010000 + j)) := by
    rw [InMsgWindow, hn]
    omega
  rw [locAt_msgWindow hw, hn, msgBase, Nat.add_sub_cancel_left]

/-- A message byte can be read exactly where it exists and is written. -/
theorem memRead_eq_ok_iff {s : State} {j : Nat} {b : Byte} :
    memRead s j = .ok b ↔ j < s.config.msgCap.toNat ∧ s.msg.read j = some b := by
  by_cases hj : j < s.config.msgCap.toNat
  · rcases memRead_cases hj with ⟨b', hr, e⟩ | ⟨hr, e⟩ <;> simp [hj, hr, e]
  · simp [memRead, hj]

theorem bind_eq_ok_iff {α β : Type} {x : Except Fault α} {f : α → Except Fault β} {b : β} :
    (x >>= f) = .ok b ↔ ∃ a, x = .ok a ∧ f a = .ok b := by
  cases x with
  | ok a => exact ⟨fun h => ⟨a, rfl, h⟩, fun ⟨_, rfl, h⟩ => h⟩
  | error e => exact ⟨fun h => (nomatch h), fun ⟨_, h, _⟩ => (nomatch h)⟩

/-- A message word can be read exactly where its four bytes can. -/
theorem msgWord_eq_ok_iff {s : State} {j : Nat} {v : Word} :
    msgWord s j = .ok v ↔ ∃ b0 b1 b2 b3, memRead s j = .ok b0 ∧ memRead s (j + 1) = .ok b1 ∧
      memRead s (j + 2) = .ok b2 ∧ memRead s (j + 3) = .ok b3 ∧ wordOfLanes b0 b1 b2 b3 = v := by
  simp only [msgWord, bind_eq_ok_iff, pure, Except.pure, Except.ok.injEq, exists_and_left]

/-- A message word with an UNWRITTEN byte is the model fault, if its four bytes exist. -/
theorem msgWord_unwritten {s : State} {j i : Nat} (hcap : j + 3 < s.config.msgCap.toNat) (hi : i < 4)
    (hnone : s.msg.read (j + i) = none) : msgWord s j = .error .unwrittenMsgRead := by
  cases hv : msgWord s j with
  | ok v =>
    obtain ⟨b0, b1, b2, b3, h0, h1, h2, h3, _⟩ := msgWord_eq_ok_iff.1 hv
    have hread : ∃ b, memRead s (j + i) = .ok b := by
      interval_cases i
      exacts [⟨b0, h0⟩, ⟨b1, h1⟩, ⟨b2, h2⟩, ⟨b3, h3⟩]
    obtain ⟨b, hb⟩ := hread
    obtain ⟨_, hsome⟩ := memRead_eq_ok_iff.1 hb
    rw [hsome] at hnone
    cases hnone
  | error f =>
    obtain ⟨_, i', hl, hi', hf⟩ := readLoc_error (l := .msg j) hv
    cases hl
    rcases memRead_cases (s := s) (j := j + i') (by omega) with ⟨b, _, e⟩ | ⟨_, e⟩ <;> rw [e] at hf <;> cases hf
    rfl

/-- A read at an aligned offset stops where the location's word does. -/
theorem busRead_fault_of {s : State} {a : Word} {f : Fault} (h : a.toNat % 4 = 0)
    (hf : readLoc s (locAt s.config.msgCap a) = .error f) : transact s (.read a) = .fault f := by
  rcases busRead_cases s a with ⟨h', _⟩ | ⟨_, v, hv, _⟩ | ⟨_, f', hf', e⟩
  · exact absurd h h'
  · rw [hf] at hv; cases hv
  · rw [hf] at hf'; cases hf'; exact e

/-! ### Turns -/

theorem step_reset {s : State} {p : Option Txn} {rest : List Input} (h : s.inputs = .reset p :: rest) :
    step s = .next (resetStep (beginTurn s rest) p) := by
  simp only [step, nextTurn, h, takeTurn]

end Sys2Proof.Machine
end

section
/-!
SUPPORT. The constants of the two ROMs are the root fractions of the first primes (43_compressor.md R171, R172).
-/

namespace Sys2Proof.Document

open Sys2Proof.Machine

/-- The primes below 312, written out. -/
theorem firstPrimes_eq : firstPrimes =
    [2, 3, 5, 7, 11, 13, 17, 19, 23, 29, 31, 37, 41, 43, 47, 53, 59, 61, 67, 71, 73, 79, 83, 89, 97, 101, 103, 107,
      109, 113, 127, 131, 137, 139, 149, 151, 157, 163, 167, 173, 179, 181, 191, 193, 197, 199, 211, 223, 227, 229,
      233, 239, 241, 251, 257, 263, 269, 271, 277, 281, 283, 293, 307, 311] := by
  decide +kernel

/-- A root's whole part `r` and the 32 bits after the point bracket it. -/
theorem isRootFraction_of_wholePart {k p : Nat} {x : Word} (r : Nat)
    (hlo : (r * 2 ^ 32 + x.toNat) ^ k ≤ p * 2 ^ (32 * k))
    (hhi : p * 2 ^ (32 * k) < (r * 2 ^ 32 + x.toNat + 1) ^ k) : IsRootFraction k p x :=
  ⟨r * 2 ^ 32 + x.toNat, hlo, hhi, by have := x.isLt; omega⟩

/-- The cube roots of the 64 primes are below 7. -/
theorem kRom_isRootFraction (i : Fin 64) : IsRootFraction 3 (firstPrimes.getD i.val 0) kRom[i] := by
  have bracket : ∀ i : Fin 64, ∃ r < 7,
      (r * 2 ^ 32 + kRom[i].toNat) ^ 3 ≤ firstPrimes.getD i.val 0 * 2 ^ (32 * 3) ∧
      firstPrimes.getD i.val 0 * 2 ^ (32 * 3) < (r * 2 ^ 32 + kRom[i].toNat + 1) ^ 3 := by
    rw [firstPrimes_eq]
    decide +kernel
  obtain ⟨r, _, hlo, hhi⟩ := bracket i
  exact isRootFraction_of_wholePart r hlo hhi

/-- The square roots of the first eight primes are below 5. -/
theorem ivRom_isRootFraction (k : Fin 8) : IsRootFraction 2 (firstPrimes.getD k.val 0) ivRom[k] := by
  have bracket : ∀ k : Fin 8, ∃ r < 5,
      (r * 2 ^ 32 + ivRom[k].toNat) ^ 2 ≤ firstPrimes.getD k.val 0 * 2 ^ (32 * 2) ∧
      firstPrimes.getD k.val 0 * 2 ^ (32 * 2) < (r * 2 ^ 32 + ivRom[k].toNat + 1) ^ 2 := by
    rw [firstPrimes_eq]
    decide +kernel
  obtain ⟨r, _, hlo, hhi⟩ := bracket k
  exact isRootFraction_of_wholePart r hlo hhi

end Sys2Proof.Document
end

section
/-! SUPPORT. The host's view of the memory map: what a read answers, what a write does, and what stays. -/

namespace Sys2Proof.Safety

open Sys2Proof.Machine Sys2Proof.Document

/-- A read at an aligned offset whose location is known. -/
theorem readsAs_of {s : State} {addr v : Word} {l : Loc} (ha : addr.toNat % 4 = 0)
    (hl : locAt s.config.msgCap addr = l) (hv : readLoc s l = .ok v) : ReadsAs s addr v :=
  busRead_of ha (hl ▸ hv)

/-- A read of a register file's word. -/
theorem readsAs_file {s : State} {n base : Nat} {k : Fin n} {l : Loc} {v : Word} (hb : base % 4 = 0)
    (hn : base + 4 * n ≤ 2 ^ 32) (hl : locAt s.config.msgCap (BitVec.ofNat 32 (base + 4 * k.val)) = l)
    (hv : readLoc s l = .ok v) : ReadsAs s (BitVec.ofNat 32 (base + 4 * k.val)) v :=
  readsAs_of (fileOffset_aligned k hb hn) hl hv

/-- Settles O4, by the form of the list of inputs. -/
theorem stepTakesTheFirstInput : Obligations.StepTakesTheFirstInput := by
  intro s
  refine ⟨fun h => ?_, fun _ h => step_sequencer h, fun _ _ h => step_bus h, fun _ _ h => step_reset h⟩
  rw [step_empty h, beginTurn, ← h]

/-- Settles O17: the other cases of a read and of a write are aligned. -/
theorem misalignedAccessHasNoEffect : Obligations.MisalignedAccessHasNoEffect := by
  intro s addr ha
  refine ⟨?_, fun d b => ?_⟩
  · rcases busRead_cases s addr with ⟨_, e⟩ | ⟨h, _⟩ | ⟨h, _⟩
    · exact e
    · exact absurd h ha
    · exact absurd h ha
  · rcases busWrite_cases s addr d b with ⟨_, e⟩ | ⟨h, _⟩ | ⟨h, _⟩
    · exact e
    · exact absurd h ha
    · exact absurd h ha

/-- Settles O18, by the cases of a write. -/
theorem zeroStrobeWriteHasNoEffect : Obligations.ZeroStrobeWriteHasNoEffect := by
  intro s addr d ha
  rcases busWrite_cases s addr d 0#4 with ⟨h, _⟩ | ⟨_, _, e⟩ | ⟨_, h, _⟩
  · exact absurd ha h
  · exact e
  · exact absurd rfl h

/-- Settles O20: the location is a message word, and `writeLanes_read` says what its bytes read as. -/
theorem messageWriteStoresLanes : Obligations.MessageWriteStoresLanes := by
  intro s addr d b hbusy hb ha hw
  refine ⟨writeLanes s.msg (addr.toNat - msgBase) d b, ?_, fun a => ?_⟩
  · rw [busWrite_of ha hb, locAt_msgWindow hw]
    exact storeUnlessBusy_idle (s := respond s (.write false)) hbusy _
  · obtain ⟨hlo, _⟩ := hw
    have hbase : msgBase = 0x00010000 := rfl
    have hlane : 0x00010000 + a - addr.toNat = a - (addr.toNat - msgBase) := by omega
    rw [writeLanes_read, hlane]
    by_cases hout : 0x00010000 + a < addr.toNat ∨ addr.toNat + 4 ≤ 0x00010000 + a
    · rw [if_pos hout, if_neg (by omega)]
    · simp only [if_neg hout, show addr.toNat - msgBase ≤ a ∧ a < addr.toNat - msgBase + 4 by omega, true_and, lane]

/-- Settles O22: reserved offsets hold `.reserved`, and of the six cases of a write only the last ignores it. -/
theorem reservedAndReadOnlyOffsets : Obligations.ReservedAndReadOnlyOffsets := by
  intro s addr ha
  refine ⟨fun hr => readsAs_of ha (locAt_reserved hr) rfl, ?_⟩
  rintro ⟨hctrl, hstatus, hlenLo, hlenHi, hmsg⟩ d b
  by_cases hb : b = 0#4
  · subst hb
    exact zeroStrobeWriteHasNoEffect s addr d ha
  rw [busWrite_of ha hb]
  rcases writeLoc_cases (respond s (.write false)) addr d b with
    ⟨rfl, _⟩ | ⟨rfl, _⟩ | ⟨rfl, _⟩ | ⟨rfl, _⟩ | ⟨hw, _⟩ | ⟨_, e⟩
  · exact absurd rfl hctrl
  · exact absurd rfl hstatus
  · exact absurd rfl hlenLo
  · exact absurd rfl hlenHi
  · exact absurd hw hmsg
  · exact e

/-- Settles O23: each offset's location computes. -/
theorem controlRegistersRead : Obligations.ControlRegistersRead := fun _ =>
  ⟨readsAs_of rfl rfl rfl, readsAs_of rfl rfl rfl, readsAs_of rfl rfl rfl, readsAs_of rfl rfl rfl,
    readsAs_of rfl rfl rfl, readsAs_of rfl rfl rfl, readsAs_of rfl rfl rfl⟩

/-- Settles O24, from the locations of the files and the root fractions of the ROMs. -/
theorem registerFilesRead : Obligations.RegisterFilesRead := fun s =>
  ⟨fun k => readsAs_file rfl (by decide) (locAt_hFile _ k) rfl,
    fun k => readsAs_file rfl (by decide) (locAt_ivFile _ k) rfl,
    fun k => readsAs_file rfl (by decide) (locAt_wvFile _ k) rfl,
    fun n => readsAs_file rfl (by decide) (locAt_hexFile _ n) rfl,
    fun t => readsAs_file rfl (by decide) (locAt_wFile _ t) rfl,
    fun i => readsAs_file rfl (by decide) (locAt_kFile _ i) rfl,
    kRom_isRootFraction, ivRom_isRootFraction⟩

/-- Settles O25: a legal MSG_CAP is a multiple of 4, so the word's four bytes exist. -/
theorem messageRead : Obligations.MessageRead := by
  intro s j hc hj hjcap
  have hloc := locAt_msgOffset hc hjcap
  have hcap : j + 3 < s.config.msgCap.toNat := by
    obtain ⟨hmod, _, _⟩ := hc
    omega
  have haligned : (BitVec.ofNat 32 (0x00010000 + j)).toNat % 4 = 0 := by
    rw [msgOffset_toNat hc hjcap]
    omega
  refine ⟨fun b0 b1 b2 b3 h0 h1 h2 h3 => readsAs_of haligned hloc ?_, fun i hi hnone => ?_⟩
  · exact msgWord_eq_ok_iff.2 ⟨b0, b1, b2, b3, memRead_eq_ok_iff.2 ⟨by omega, h0⟩,
      memRead_eq_ok_iff.2 ⟨by omega, h1⟩, memRead_eq_ok_iff.2 ⟨by omega, h2⟩, memRead_eq_ok_iff.2 ⟨hcap, h3⟩, rfl⟩
  · apply busRead_fault_of haligned
    rw [hloc]
    exact msgWord_unwritten hcap hi hnone

/-- Settles O49, by cases on the effect of the step: BUSY = 0 excludes the micro-steps. -/
theorem finishedDigestStays : Obligations.FinishedDigestStays := by
  intro s t hb hd h hreset haccepted
  obtain ⟨s0, h0, he⟩ := step_effect h
  have idle {p : Phase} (hm : MicroTurn s p) : False := by simpa [hb] using hm.busy
  cases he with
  | sched _ hm => exact (idle hm).elim
  | loadwv hm => exact (idle hm).elim
  | round hm => exact (idle hm).elim
  | fold hm => exact (idle hm).elim
  | format hm => exact (idle hm).elim
  | reset p hr => exact absurd hr hreset
  | init hb hc => exact absurd (acceptedTurn_of_init hb hc) haccepted
  | hash hb hc hl => exact absurd (acceptedTurn_of_hash hb hc hl) haccepted
  | _ => simp [h0.h, h0.hex, h0.w, h0.wv, h0.blkCnt, h0.nblk, h0.busy, h0.done, hb, hd]

end Sys2Proof.Safety
end

section
/-!
SUPPORT. The command decoder as an equivalence for each of its outcomes (30_encoding.md R93, R94), and the decoder on
the byte lanes of a word (20_memory.md R63); with them the statements about the encoding.
-/

namespace Sys2Proof

/-- The decoder answers a command for that command's word and for no other. -/
theorem decode_eq_ok_iff {d : Word} {i : Instr} : decode d = .ok i ↔ d = encode i :=
  ⟨encode_of_decode, fun h => h ▸ decode_encode i⟩

/-- RESERVED (30_encoding.md R94): a 1 in RSVD, or an opcode that the table does not list. -/
theorem decode_eq_error_iff {d : Word} :
    (∃ r, decode d = .error r) ↔ rsvdField d ≠ 0#28 ∨ 3 ≤ (cmdField d).toNat := by
  unfold decode
  split_ifs with hrsvd hnop hinit hhash
  · simp [hrsvd]
  · simp [hrsvd, hnop]
  · simp [hrsvd, hinit]
  · simp [hrsvd, hhash]
  · have hcmd : 3 ≤ (cmdField d).toNat := by bv_omega
    simp [hcmd]

/-- A word is put together again from its byte lanes. -/
theorem wordOfLanes_lane (x : Word) : wordOfLanes (lane x 0) (lane x 1) (lane x 2) (lane x 3) = x := by
  apply BitVec.eq_of_getLsbD_eq
  intro n hn
  rw [wordOfLanes_getLsbD]
  simp only [lane, BitVec.getLsbD_extractLsb']
  split_ifs with h0 h1 h2
  · simp [h0]
  · simp [h1, show 8 + (n - 8) = n by omega]
  · simp [h2, show 16 + (n - 16) = n by omega]
  · simp [show n - 24 < 8 by omega, show 24 + (n - 24) = n by omega]

/-- The byte decoder reads one word from its lanes and leaves the bytes after them. -/
theorem decodeBytes_lanesOf {x : Word} {i : Instr} (h : decode x = .ok i) (rest : List Byte) :
    decodeBytes (lanesOf x ++ rest) = .ok (i, rest) := by
  simp only [lanesOf, List.cons_append, List.nil_append, decodeBytes, wordOfLanes_lane, h]

/-- A row of all 32 bits is the word itself. -/
theorem tableWord_toNat (x : Word) : tableWord 32 x.toNat = x := by
  rw [tableWord, Nat.mod_eq_of_lt x.isLt, BitVec.ofNat_toNat, BitVec.setWidth_eq]

theorem decodeTableWord_toNat {x : Word} {i : Instr} (h : decode x = .ok i) :
    decodeTableWord 32 x.toNat = some i := by
  have hbytes : decodeBytes (lanesOf x) = .ok (i, []) := decodeBytes_lanesOf h []
  rw [decodeTableWord, tableWord_toNat, hbytes]

/-- Settles O2: the decoder's accepted words are the encoded ones, and its fields say which words it rejects. -/
theorem decoderIsTotalOverWords : Obligations.DecoderIsTotalOverWords := fun _ =>
  ⟨decode_eq_ok_iff, decode_eq_ok_iff, decode_eq_ok_iff, decode_eq_error_iff⟩

/-- Settles O1: the first three words are the commands' own, and the rejected ones compute. -/
theorem commandWordsDecode : Obligations.CommandWordsDecode :=
  ⟨decode_encode .nop, decode_encode .init, decode_encode .hash, by decide⟩

/-- Settles O3: a command's word decodes to it, and so does the word put together from its lanes. -/
theorem encodedCommandsDecodeBack : Obligations.EncodedCommandsDecodeBack := fun i rest _ =>
  ⟨decode_encode i, decodeBytes_lanesOf (decode_encode i) rest, decodeTableWord_toNat (decode_encode i)⟩

end Sys2Proof

namespace Sys2Proof.Machine

/-- A CTRL write of a word that decodes to a command is that command's meaning (45_commands.md R210). -/
theorem command_of_decode {s : State} {d : Word} {i : Instr} (h : decode d = .ok i) : command s d = exec i s := by
  rw [command, h]

/-- Settles O5: the step is the write's turn, the write is the command of its effective data, and that is `exec`. -/
theorem stepRunsTheDecodedCommand : Obligations.StepRunsTheDecodedCommand := by
  intro s wdata wstrb rest i hin hstrb hdec
  calc step s
    _ = transact (beginTurn s rest) (.write 0x00000004#32 wdata wstrb) := step_bus hin
    _ = command (respond (beginTurn s rest) (.write false)) (effective wdata wstrb) := ctrlWrite_of hstrb
    _ = exec i (respond (beginTurn s rest) (.write false)) := command_of_decode hdec

end Sys2Proof.Machine
end

section
/-!
SUPPORT. The operators by their values or bit by bit (40_operators.md R110 to R115); with them the statement about the
operators.
-/

namespace Sys2Proof.Machine

theorem add32_toNat (x y : Word) : (add32 x y).toNat = (x.toNat + y.toNat) % 2 ^ 32 :=
  BitVec.toNat_add x y

theorem add32_comm (x y : Word) : add32 x y = add32 y x :=
  BitVec.add_comm x y

theorem add32_assoc (x y z : Word) : add32 (add32 x y) z = add32 x (add32 y z) :=
  BitVec.add_assoc x y z

/-- The bits below 32 - n mod 32 come from above; the others come round from the low end. -/
@[simp] theorem rotr_getLsbD (x : Word) (n : Nat) {i : Nat} (hi : i < 32) :
    (rotr x n).getLsbD i = x.getLsbD ((i + n) % 32) := by
  rw [rotr, BitVec.getLsbD_rotateRight, Bool.cond_decide]
  split_ifs with hlow
  · have hsource : n % 32 + i = (i + n) % 32 := by omega
    rw [hsource]
  · have hsource : i - (32 - n % 32) = (i + n) % 32 := by omega
    rw [hsource, decide_eq_true hi, Bool.true_and]

theorem shr_toNat (x : Word) (n : Nat) : (shr x n).toNat = x.toNat / 2 ^ n := by
  rw [shr, BitVec.toNat_ushiftRight, Nat.shiftRight_eq_div_pow]

@[simp] theorem xor32_getLsbD (x y : Word) (i : Nat) : (xor32 x y).getLsbD i = (x.getLsbD i ^^ y.getLsbD i) :=
  BitVec.getLsbD_xor

@[simp] theorem and32_getLsbD (x y : Word) (i : Nat) : (and32 x y).getLsbD i = (x.getLsbD i && y.getLsbD i) :=
  BitVec.getLsbD_and

theorem not32_toNat (x : Word) : (not32 x).toNat = 0xFFFFFFFF - x.toNat :=
  BitVec.toNat_not

/-- Settles O26, operator by operator. -/
theorem operatorsCompute : Obligations.OperatorsCompute :=
  ⟨add32_toNat, fun x y z => ⟨add32_comm x y, add32_assoc x y z⟩, fun x n _ hi => rotr_getLsbD x n hi, shr_toNat,
    xor32_getLsbD, and32_getLsbD, not32_toNat⟩

end Sys2Proof.Machine
end

section
/-!
SUPPORT. PAD(j) below LEN and from LEN to PLEN as equations (41_padder.md R132), and the bytes of the message; with them
the statements about the padder.
-/

namespace Sys2Proof.Machine

/-- There is room for the marker byte and the eight bytes of the bit length (41_padder.md R131). -/
theorem len_add_nine_le_plenOf (len : DWord) : len.toNat + 9 ≤ plenOf len := by
  unfold plenOf nblkOf
  omega

theorem pad_of_lt_len {s : State} {j : Nat} (hj : j < s.len.toNat) : pad s j = memRead s j :=
  if_pos hj

/-- From LEN on PAD reads no message byte: byte j of the length field is a field of BITLEN, PLEN − 1 its lowest. -/
theorem pad_of_len_le {s : State} {j : Nat} (hlen : s.len.toNat ≤ j) (hplen : j < plenOf s.len) :
    pad s j = .ok (if j = s.len.toNat then 0x80#8
      else if plenOf s.len - 8 ≤ j then (bitLenOf s.len).extractLsb' (8 * (plenOf s.len - 1 - j)) 8
      else 0x00#8) := by
  rw [pad, if_neg (by omega), if_neg (by omega)]
  split_ifs <;> rfl

theorem bitLenOf_eq_ofNat (len : DWord) : bitLenOf len = BitVec.ofNat 64 (8 * len.toNat) := by
  rw [bitLenOf, BitVec.ofNat_mul, BitVec.ofNat_toNat, BitVec.setWidth_eq]

/-- Settles O30: (LEN + 72) div 64 is (LEN + 9) / 64 rounded up. -/
theorem paddedLengthIsLeast : Obligations.PaddedLengthIsLeast := by
  intro len
  refine ⟨Nat.mul_mod_right 64 _, len_add_nine_le_plenOf len, fun n hmul hle => ?_⟩
  unfold plenOf nblkOf
  omega

end Sys2Proof.Machine

namespace Sys2Proof.Safety

open Sys2Proof.Machine Sys2Proof.Document

theorem padMessage_message_length (s : State) : (padMessage (message s)).length = plenOf s.len := by
  rw [padMessage_length, message_length, plenOf, nblkOf]

theorem message_getD {s : State} {j : Nat} {b : Byte} (hj : j < s.len.toNat) (hread : s.msg.read j = some b) :
    (message s).getD j 0x00#8 = b := by
  simp [message, hj, hread]

/-- Below LEN, PAD reads the message's own byte, which exists and is written. -/
theorem pad_eq_message_getD {s : State} {j : Nat} (hcap : s.len.toNat ≤ s.config.msgCap.toNat) (hw : Written s)
    (hj : j < s.len.toNat) : pad s j = .ok ((message s).getD j 0x00#8) := by
  obtain ⟨b, hread⟩ := Option.isSome_iff_exists.1 (hw j hj)
  rw [pad_of_lt_len hj, message_getD hj hread, memRead_eq_ok_iff]
  exact ⟨by omega, hread⟩

/-- Settles O31: below LEN both sides are the message's byte, and from LEN on the same three cases without a read. -/
theorem padIsTheDocumentsPad : Obligations.PadIsTheDocumentsPad := by
  intro s _ hcap hw
  have hlength := padMessage_message_length s
  refine ⟨hlength, fun j hj => ?_⟩
  rw [padMessage_getD _ _ (hlength ▸ hj), hlength, message_length]
  by_cases hmsg : j < s.len.toNat
  · rw [if_pos hmsg, pad_eq_message_getD hcap hw hmsg]
  · rw [if_neg hmsg, pad_of_len_le (by omega) hj, bitLenOf_eq_ofNat]

end Sys2Proof.Safety
end

section
/-!
SUPPORT. The logical shift bit by bit (40_operators.md R112), and with the rotations the four sigma functions
(42_scheduler.md R150, R151, 43_compressor.md R175, R176).
-/

namespace Sys2Proof.Machine

@[simp] theorem shr_getLsbD (x : Word) (n i : Nat) : (shr x n).getLsbD i = x.getLsbD (i + n) := by
  rw [shr, BitVec.getLsbD_ushiftRight, Nat.add_comm]

/-- The XOR of three rotations, the form of the upper-case functions. -/
theorem xor32_rotr_rotr_rotr_getLsbD (x : Word) (n m k : Nat) {i : Nat} (hi : i < 32) :
    (xor32 (xor32 (rotr x n) (rotr x m)) (rotr x k)).getLsbD i =
      (x.getLsbD ((i + n) % 32) ^^ x.getLsbD ((i + m) % 32) ^^ x.getLsbD ((i + k) % 32)) := by
  simp only [xor32_getLsbD, rotr_getLsbD x _ hi, Bool.xor_assoc]

/-- The XOR of two rotations and a shift, the form of the lower-case functions. -/
theorem xor32_rotr_rotr_shr_getLsbD (x : Word) (n m k : Nat) {i : Nat} (hi : i < 32) :
    (xor32 (xor32 (rotr x n) (rotr x m)) (shr x k)).getLsbD i =
      (x.getLsbD ((i + n) % 32) ^^ x.getLsbD ((i + m) % 32) ^^ x.getLsbD (i + k)) := by
  simp only [xor32_getLsbD, rotr_getLsbD x _ hi, shr_getLsbD, Bool.xor_assoc]

/-- Settles O27: each function is one of the two forms. -/
theorem sigmaFunctionsCompute : Obligations.SigmaFunctionsCompute := fun x _ hi =>
  ⟨xor32_rotr_rotr_shr_getLsbD x 7 18 3 hi, xor32_rotr_rotr_shr_getLsbD x 17 19 10 hi,
    xor32_rotr_rotr_rotr_getLsbD x 2 13 22 hi, xor32_rotr_rotr_rotr_getLsbD x 6 11 25 hi⟩

end Sys2Proof.Machine
end

section
/-!
SUPPORT. What the micro-steps LOADW and EXPANDW are as outcomes (45_commands.md R220), and when a schedule word can be
loaded; with them the statements about the two micro-steps.
-/

namespace Sys2Proof.Machine

/-- A schedule word can be loaded exactly where its four PAD bytes can. -/
theorem padWord_eq_ok_iff {s : State} {j : Nat} {x : Word} :
    padWord s j = .ok x ↔ ∃ b0 b1 b2 b3, pad s j = .ok b0 ∧ pad s (j + 1) = .ok b1 ∧
      pad s (j + 2) = .ok b2 ∧ pad s (j + 3) = .ok b3 ∧ b0 ++ b1 ++ b2 ++ b3 = x := by
  simp only [padWord, bind_eq_ok_iff, pure, Except.pure, Except.ok.injEq, exists_and_left]

theorem microStep_loadw {s : State} {x : Word} (hb : s.busy = true) (hp : s.phase = .sched)
    (ht : s.seqStep.toNat < 16) (hx : padWord s (wordIndex s s.seqStep) = .ok x) :
    microStep s = .next (schedNext (storeW s s.seqStep x)) := by
  have hlt : s.seqStep < 16#6 := (seqStep_lt_iff (by omega)).2 ht
  simp only [microStep, busyMicro, schedMicro, loadW, hb, hp, hx, if_true, if_pos hlt]

theorem microStep_expandw {s : State} (hb : s.busy = true) (hp : s.phase = .sched) (ht : 16 ≤ s.seqStep.toNat) :
    microStep s = .next (schedNext (expandW s s.seqStep)) := by
  have hge : ¬ s.seqStep < 16#6 := mt (seqStep_lt_iff (by omega)).1 (by omega)
  simp only [microStep, busyMicro, schedMicro, hb, hp, if_true, if_neg hge]

/-- The register k words before schedule word t. -/
theorem wAt_sub (s : State) {t k : BitVec 6} (hk : k.toNat ≤ t.toNat) :
    wAt s (t - k) = s.w[t.toNat - k.toNat]'(by omega) := by
  simp only [wAt, BitVec.toNat_sub_of_le (BitVec.le_def.2 hk)]

/-- EXPANDW's four sources are the registers 2, 7, 15 and 16 words before (42_scheduler.md R154). -/
theorem expandW_eq_storeW (s : State) {t : BitVec 6} (ht : 16 ≤ t.toNat) :
    expandW s t = storeW s t
      (sigma1 s.w[t.toNat - 2] + s.w[t.toNat - 7] + sigma0 s.w[t.toNat - 15] + s.w[t.toNat - 16]) := by
  rw [expandW, wAt_sub s (k := 2) (Nat.le_trans (by decide) ht), wAt_sub s (k := 7) (Nat.le_trans (by decide) ht),
    wAt_sub s (k := 15) (Nat.le_trans (by decide) ht), wAt_sub s (k := 16) ht]
  rfl

/-- STEP is below its last value or at it. -/
theorem seqStep_lt_or_eq (x : BitVec 6) : x.toNat < 63 ∨ x.toNat = 63 :=
  Nat.lt_or_eq_of_le (Nat.le_of_lt_succ x.isLt)

/-- Settles O32: the four bytes are the word LOADW stores, and t < 16 is not the last step. -/
theorem loadwStep : Obligations.LoadwStep := by
  intro s t b0 b1 b2 b3 hb hp ht hlt h0 h1 h2 h3
  obtain rfl : t = ⟨s.seqStep.toNat, s.seqStep.isLt⟩ := Fin.ext ht.symm
  have hx : padWord s (wordIndex s s.seqStep) = .ok (b0 ++ b1 ++ b2 ++ b3) :=
    padWord_eq_ok_iff.2 ⟨b0, b1, b2, b3, h0, h1, h2, h3, rfl⟩
  rw [microStep_loadw hb hp hlt hx, schedNext_more (by rw [storeW_seqStep]; omega)]
  rfl

/-- Settles O34: the sum over the registers before t, and SchedNext for t < 63 and t = 63. -/
theorem expandwStep : Obligations.ExpandwStep := by
  intro s t hb hp ht hge
  obtain rfl : t = ⟨s.seqStep.toNat, s.seqStep.isLt⟩ := Fin.ext ht.symm
  rw [microStep_expandw hb hp hge, expandW_eq_storeW s (t := s.seqStep) hge]
  rcases seqStep_lt_or_eq s.seqStep with hmore | hlast
  · rw [schedNext_more (by exact hmore), if_neg hmore.ne, if_neg hmore.ne, ← hp]
    rfl
  · rw [schedNext_last (by exact hlast), if_pos hlast, if_pos hlast]
    rfl

end Sys2Proof.Machine
end

section
/-!
SUPPORT. What H, W and wv hold of the running HASH in the document's terms: `HashProgress` phase by phase, each
micro-step as one more step of the document's algorithm (42_scheduler.md R155, 43_compressor.md R183, 45_commands.md
R230), and every other step, which leaves the computation alone or ends it or begins it; with it O53.
-/

namespace Sys2Proof.Document

open Sys2Proof.Machine

/-- A word of a block is a word of the message it is cut from (42_scheduler.md R152, R153). -/
theorem bigEndianWord_block (bytes : List Byte) (b : Nat) {i : Nat} (hi : i + 3 < 64) :
    bigEndianWord (block bytes b) i = bigEndianWord bytes (64 * b + i) := by
  unfold bigEndianWord
  rw [block_getD bytes b i (by omega), block_getD bytes b (i + 1) (by omega), block_getD bytes b (i + 2) (by omega),
    block_getD bytes b (i + 3) hi]
  rfl

/-- The register k words before the next schedule word holds that word of the schedule. -/
theorem wAt_sub_eq {s : State} {blk : List Byte} {t : BitVec 6}
    (hw : s.w.toList.take t.toNat = schedulePrefix blk t.toNat) {k : BitVec 6} (hpos : 0 < k.toNat)
    (hk : k.toNat ≤ t.toNat) : wAt s (t - k) = (schedulePrefix blk t.toNat).getD (t.toNat - k.toNat) 0#32 := by
  have hsub := BitVec.toNat_sub_of_le (BitVec.le_def.2 hk)
  rw [wAt_eq hw (by omega), hsub]

/-- EXPANDW's sum over the registers is the document's next schedule word (42_scheduler.md R154). -/
theorem nextWord_schedulePrefix {s : State} {blk : List Byte} {t : BitVec 6} (ht : 16 ≤ t.toNat)
    (hw : s.w.toList.take t.toNat = schedulePrefix blk t.toNat) :
    nextWord (schedulePrefix blk t.toNat) =
      expandSum (wAt s (t - 2)) (wAt s (t - 7)) (wAt s (t - 15)) (wAt s (t - 16)) := by
  rw [wAt_sub_eq hw (k := 2) (by decide) (Nat.le_trans (by decide) ht),
    wAt_sub_eq hw (k := 7) (by decide) (Nat.le_trans (by decide) ht),
    wAt_sub_eq hw (k := 15) (by decide) (Nat.le_trans (by decide) ht), wAt_sub_eq hw (k := 16) (by decide) ht,
    nextWord, schedulePrefix_length]
  rfl

/-- ROUND(i) does the next of the document's rounds. -/
theorem ofState_roundWords_eq_rounds_succ {x : Vars} {v : Vector Word 8} {w : Vector Word 64} {i : Nat} (hi : i < 64)
    (hv : Vars.ofState v = rounds x w.toList i) :
    Vars.ofState (roundWords v kRom[i] w[i]) = rounds x w.toList (i + 1) := by
  rw [ofState_roundWords, hv, rounds]
  simp [List.getD_eq_getElem?_getD, hi]

end Sys2Proof.Document

namespace Sys2Proof.Safety

open Sys2Proof.Machine Sys2Proof.Document

/-! ### The message's bytes -/

/-- PAD answers below PLEN only (41_padder.md R132). -/
theorem lt_plenOf_of_pad {s : State} {j : Nat} {b : Byte} (h : pad s j = .ok b) : j < plenOf s.len := by
  by_contra hout
  have hlen := len_add_nine_le_plenOf s.len
  rw [pad, if_neg (by omega), if_pos (by omega)] at h
  cases h

/-- Where PAD answers, it answers the byte of the document's padded message (41_padder.md R133). -/
theorem padMessage_getD_of_pad {s : State} {j : Nat} {b : Byte} (h : pad s j = .ok b) :
    (padMessage (message s)).getD j 0x00#8 = b := by
  have hplen := lt_plenOf_of_pad h
  rw [padMessage_getD _ _ (padMessage_message_length s ▸ hplen), padMessage_message_length, message_length]
  by_cases hmsg : j < s.len.toNat
  · obtain ⟨_, hread⟩ := memRead_eq_ok_iff.1 ((pad_of_lt_len hmsg).symm.trans h)
    rw [if_pos hmsg, message_getD hmsg hread]
  · rw [pad_of_len_le (by omega) hplen, bitLenOf_eq_ofNat, Except.ok.injEq] at h
    rw [if_neg hmsg, h]

theorem bigEndianWord_of_padWord {s : State} {j : Nat} {x : Word} (h : padWord s j = .ok x) :
    bigEndianWord (padMessage (message s)) j = x := by
  obtain ⟨b0, b1, b2, b3, h0, h1, h2, h3, rfl⟩ := padWord_eq_ok_iff.1 h
  unfold bigEndianWord
  rw [padMessage_getD_of_pad h0, padMessage_getD_of_pad h1, padMessage_getD_of_pad h2, padMessage_getD_of_pad h3]

/-! ### HashProgress by phase -/

/-- The block being processed (42_scheduler.md R152). -/
def currentBlock (s : State) : List Byte := block (padMessage (message s)) s.blkCnt.toNat

/-- H is the hash state after the blocks folded so far (45_commands.md R230). -/
def FoldedSoFar (s : State) : Prop := s.h = hashBlocks (padMessage (message s)) s.blkCnt.toNat

theorem hashProgress_of_idle {s : State} (hp : s.phase = .idle) : HashProgress s := by
  rw [HashProgress, hp]
  trivial

theorem hashProgress_sched_iff {s : State} (hp : s.phase = .sched) :
    HashProgress s ↔ FoldedSoFar s ∧
      s.w.toList.take s.seqStep.toNat = schedulePrefix (currentBlock s) s.seqStep.toNat := by
  rw [HashProgress, hp]
  rfl

theorem hashProgress_loadwv_iff {s : State} (hp : s.phase = .loadwv) :
    HashProgress s ↔ FoldedSoFar s ∧ s.w.toList = expand (currentBlock s) := by
  rw [HashProgress, hp]
  rfl

theorem hashProgress_round_iff {s : State} (hp : s.phase = .round) :
    HashProgress s ↔ FoldedSoFar s ∧ s.w.toList = expand (currentBlock s) ∧
      Vars.ofState s.wv = rounds (Vars.ofState s.h) s.w.toList s.seqStep.toNat := by
  rw [HashProgress, hp]
  rfl

theorem hashProgress_fold_iff {s : State} (hp : s.phase = .fold) :
    HashProgress s ↔ FoldedSoFar s ∧ s.w.toList = expand (currentBlock s) ∧
      Vars.ofState s.wv = rounds (Vars.ofState s.h) s.w.toList 64 := by
  rw [HashProgress, hp]
  rfl

theorem hashProgress_format_iff {s : State} (hp : s.phase = .format) :
    HashProgress s ↔ FoldedSoFar s ∧
      s.w.toList = expand (block (padMessage (message s)) (s.blkCnt.toNat - 1)) ∧
      Vars.ofState s.wv =
        rounds (Vars.ofState (hashBlocks (padMessage (message s)) (s.blkCnt.toNat - 1))) s.w.toList 64 := by
  rw [HashProgress, hp]
  rfl

/-- HashProgress speaks of the computation only. -/
theorem HashProgress.congr {s t : State} (hs : HashProgress s) (h : SameComputation s t) : HashProgress t := by
  unfold HashProgress at hs ⊢
  rw [message_congr h.msg h.len, h.phase, h.h, h.wv, h.w, h.blkCnt, h.seqStep]
  exact hs

/-! ### The sequencer -/

/-- The word LOADW stores is the next word of the block's schedule. -/
theorem schedulePrefix_succ_of_loadw {s : State} {x : Word} (ht : s.seqStep.toNat < 16)
    (hx : padWord s (wordIndex s s.seqStep) = .ok x) :
    schedulePrefix (currentBlock s) (s.seqStep.toNat + 1) =
      schedulePrefix (currentBlock s) s.seqStep.toNat ++ [x] := by
  rw [schedulePrefix_succ, if_pos ht, currentBlock, bigEndianWord_block _ _ (by omega), ← bigEndianWord_of_padWord hx,
    wordIndex]

/-- The word EXPANDW stores is the next word of the block's schedule. -/
theorem schedulePrefix_succ_of_expandw {s : State} {t : BitVec 6} (ht : 16 ≤ t.toNat)
    (hw : s.w.toList.take t.toNat = schedulePrefix (currentBlock s) t.toNat) :
    schedulePrefix (currentBlock s) (t.toNat + 1) = schedulePrefix (currentBlock s) t.toNat ++
      [expandSum (wAt s (t - 2)) (wAt s (t - 7)) (wAt s (t - 15)) (wAt s (t - 16))] := by
  rw [schedulePrefix_succ, if_neg (by omega), nextWord_schedulePrefix ht hw]

/-- SchedNext after a schedule word is stored: the next word is due, or the schedule is complete. -/
theorem HashProgress.schedNext {s : State} (hp : s.phase = .sched) (hh : FoldedSoFar s)
    (hw : s.w.toList.take (s.seqStep.toNat + 1) = schedulePrefix (currentBlock s) (s.seqStep.toNat + 1)) :
    HashProgress (schedNext s) := by
  rcases seqStep_lt_or_eq s.seqStep with hmore | hlast
  · rw [schedNext_more hmore, hashProgress_sched_iff (by exact hp), seqStep_succ hmore]
    exact ⟨hh, hw⟩
  · rw [hlast, List.take_of_length_le (by simp)] at hw
    rw [schedNext_last hlast, hashProgress_loadwv_iff rfl]
    exact ⟨hh, hw⟩

/-- A micro-step that stores the next word of the block's schedule. -/
theorem HashProgress.storeW {s : State} {x : Word} (hs : HashProgress s) (hp : s.phase = .sched)
    (hx : schedulePrefix (currentBlock s) (s.seqStep.toNat + 1) =
      schedulePrefix (currentBlock s) s.seqStep.toNat ++ [x]) :
    HashProgress (Machine.schedNext (storeW s s.seqStep x)) := by
  obtain ⟨hh, hw⟩ := (hashProgress_sched_iff hp).1 hs
  have hstored : (s.w.set s.seqStep.toNat x s.seqStep.isLt).toList.take (s.seqStep.toNat + 1) =
      schedulePrefix (currentBlock s) (s.seqStep.toNat + 1) := by
    rw [toList_set_take, hw, hx]
  exact .schedNext hp hh hstored

theorem HashProgress.loadwv {s : State} (hs : HashProgress s) (hp : s.phase = .loadwv) :
    HashProgress (loadwvNext (loadWv s)) := by
  obtain ⟨hh, hw⟩ := (hashProgress_loadwv_iff hp).1 hs
  exact (hashProgress_round_iff rfl).2 ⟨hh, hw, rfl⟩

/-- RoundNext after a round is done: the next round is due, or all 64 are done. -/
theorem HashProgress.roundNext {s : State} (hp : s.phase = .round) (hh : FoldedSoFar s)
    (hw : s.w.toList = expand (currentBlock s))
    (hv : Vars.ofState s.wv = rounds (Vars.ofState s.h) s.w.toList (s.seqStep.toNat + 1)) :
    HashProgress (roundNext s) := by
  rcases seqStep_lt_or_eq s.seqStep with hmore | hlast
  · rw [roundNext_more hmore, hashProgress_round_iff (by exact hp), seqStep_succ hmore]
    exact ⟨hh, hw, hv⟩
  · rw [hlast] at hv
    rw [roundNext_last hlast, hashProgress_fold_iff rfl]
    exact ⟨hh, hw, hv⟩

theorem HashProgress.round {s : State} (hs : HashProgress s) (hp : s.phase = .round) :
    HashProgress (Machine.roundNext (roundStep s s.seqStep)) := by
  obtain ⟨hh, hw, hv⟩ := (hashProgress_round_iff hp).1 hs
  exact .roundNext hp hh hw (ofState_roundWords_eq_rounds_succ s.seqStep.isLt hv)

/-- FOLD adds the 64 rounds' result to H, which is the document's compression of the block. -/
theorem foldWords_eq_hashBlocks {s : State} (hh : FoldedSoFar s) (hw : s.w.toList = expand (currentBlock s))
    (hv : Vars.ofState s.wv = rounds (Vars.ofState s.h) s.w.toList 64) :
    foldWords s.h s.wv = hashBlocks (padMessage (message s)) (s.blkCnt.toNat + 1) := by
  rw [foldWords_eq, hv, hw, hh, hashBlocks]
  rfl

theorem HashProgress.fold {s : State} (hs : HashProgress s) (hp : s.phase = .fold)
    (hblk : (s.blkCnt + 1#32).toNat = s.blkCnt.toNat + 1) : HashProgress (foldNext (foldStep s)) := by
  obtain ⟨hh, hw, hv⟩ := (hashProgress_fold_iff hp).1 hs
  have hfolded : FoldedSoFar (foldNext (foldStep s)) := by
    show foldWords s.h s.wv = hashBlocks (padMessage (message s)) (s.blkCnt + 1#32).toNat
    rw [hblk]
    exact foldWords_eq_hashBlocks hh hw hv
  by_cases hlast : s.blkCnt + 1#32 = s.nblk
  · refine (hashProgress_format_iff (by simp [hlast])).2 ⟨hfolded, ?_⟩
    rw [foldNext_blkCnt, foldStep_blkCnt, hblk, Nat.add_sub_cancel]
    refine ⟨hw, ?_⟩
    rw [hh] at hv
    exact hv
  · exact (hashProgress_sched_iff (by simp [hlast])).2 ⟨hfolded, rfl⟩

/-- Every completed turn of the sequencer does one more step of the document's algorithm. -/
theorem HashProgress.microStep {s t : State} (hi : Inv s) (hs : HashProgress s) (h : microStep s = .next t) :
    HashProgress t := by
  rcases microStep_next h with ⟨_, rfl⟩ | ⟨_, hp, ht, x, hx, rfl⟩ | ⟨_, hp, ht, rfl⟩ | ⟨_, hp, rfl⟩ | ⟨_, hp, rfl⟩ |
    ⟨_, hp, rfl⟩ | ⟨_, hp, rfl⟩
  · exact hs
  · exact hs.storeW hp (schedulePrefix_succ_of_loadw ((seqStep_lt_iff (by omega)).1 ht) hx)
  · have hge : 16 ≤ s.seqStep.toNat := Nat.le_of_not_lt (mt (seqStep_lt_iff (by omega)).2 ht)
    obtain ⟨_, hw⟩ := (hashProgress_sched_iff hp).1 hs
    exact hs.storeW hp (schedulePrefix_succ_of_expandw hge hw)
  · exact hs.loadwv hp
  · exact hs.round hp
  · exact hs.fold hp (blkCnt_succ (hi.blkRunning (.inr (.inr (.inr hp)))))
  · exact hashProgress_of_idle rfl

/-! ### Bus, commands and reset -/

theorem Inv.phase_idle {s : State} (hi : Inv s) (hb : s.busy = false) : s.phase = .idle := by
  have hactive : s.phase.active = false := hi.busyActive.symm.trans hb
  obtain ⟨h6, h7⟩ := hi.phaseUsed
  cases hp : s.phase with
  | idle => rfl
  | unused6 => exact absurd hp h6
  | unused7 => exact absurd hp h7
  | _ => rw [hp] at hactive; cases hactive

theorem sameComputation_reject (s : State) (e : ErrBit) : SameComputation s (reject s e) := by
  constructor <;> simp

theorem sameComputation_clearErrors (s : State) (d : Word) : SameComputation s (clearErrors s d) := by
  constructor <;> rfl

/-- A turn that is not the sequencer's leaves the computation as it is, ends it, or begins a new one; MSG and LEN change
while no HASH runs only. -/
theorem HashProgress.effect {s s0 t : State} (hi : Inv s) (hs : HashProgress s) (hturn : ¬ SequencerTurn s)
    (h0 : TurnState s s0) (he : Effect s s0 t) : HashProgress t := by
  have hs0 : HashProgress s0 := hs.congr h0.toSameComputation
  have hidle (hb : s.busy = false) : s0.phase = .idle := h0.phase.trans (hi.phase_idle hb)
  cases he with
  | nothing => exact hs0
  | sched _ hm => exact absurd hm.turn hturn
  | loadwv hm => exact absurd hm.turn hturn
  | round hm => exact absurd hm.turn hturn
  | fold hm => exact absurd hm.turn hturn
  | format hm => exact absurd hm.turn hturn
  | reset p => exact hashProgress_of_idle (resetStep_phase s0 p)
  | rejected e => exact hs0.congr (sameComputation_reject s0 e)
  | init => exact hashProgress_of_idle rfl
  | hash => exact (hashProgress_sched_iff rfl).2 ⟨rfl, rfl⟩
  | errorsCleared _ _ w => exact hs0.congr (sameComputation_clearErrors s0 w)
  | lenStored _ _ _ _ hb => exact hashProgress_of_idle (hidle hb)
  | msgStored _ _ _ hb => exact hashProgress_of_idle (hidle hb)

theorem turnState_beginTurn (s : State) (rest : List Input) : TurnState s (beginTurn s rest) where
  toSameComputation := by constructor <;> rfl
  toSameErrors := by constructor <;> rfl
  config := rfl

theorem step_of_sequencerTurn {s : State} (h : SequencerTurn s) : ∃ rest, step s = microStep (beginTurn s rest) := by
  rcases h with hnone | hhead
  · exact ⟨[], step_empty hnone⟩
  · obtain ⟨rest, hrest⟩ := List.head?_eq_some_iff.1 hhead
    exact ⟨rest, step_sequencer hrest⟩

/-- Settles O53: the sequencer's turn by its micro-step, every other turn by its effect. -/
theorem everyStepKeepsHashProgress : Obligations.EveryStepKeepsHashProgress := by
  intro s t hi hs h
  by_cases hturn : SequencerTurn s
  · obtain ⟨rest, hstep⟩ := step_of_sequencerTurn hturn
    have h0 := turnState_beginTurn s rest
    exact (hs.congr h0.toSameComputation).microStep (hi.turnState h0) (hstep.symm.trans h)
  · obtain ⟨s0, h0, he⟩ := step_effect h
    exact hs.effect hi hturn h0 he

end Sys2Proof.Safety
end

section
/-!
SUPPORT. Choice and majority bit by bit (43_compressor.md R173, R174), what the micro-steps LOADWV, ROUND and FOLD are as
outcomes (45_commands.md R220), and FOLD's additions word by word (43_compressor.md R182); with them the statements about
the compression engine.
-/

namespace Sys2Proof.Machine

/-! ### Choice and majority -/

@[simp] theorem not32_getLsbD (x : Word) {i : Nat} (hi : i < 32) : (not32 x).getLsbD i = !x.getLsbD i := by
  rw [not32, BitVec.getLsbD_not, decide_eq_true hi, Bool.true_and]

/-- One of the two terms is masked out by x's bit, so their XOR is the other one. -/
theorem ch_getLsbD (x y z : Word) {i : Nat} (hi : i < 32) :
    (ch x y z).getLsbD i = if x.getLsbD i = true then y.getLsbD i else z.getLsbD i := by
  rw [ch, xor32_getLsbD, and32_getLsbD, and32_getLsbD, not32_getLsbD x hi]
  cases x.getLsbD i with
  | true => simp
  | false => simp

/-- XOR and OR of the three pairs agree: the number of pairs set is 0, 1 or 3, never 2. -/
theorem maj_getLsbD (x y z : Word) (i : Nat) :
    (maj x y z).getLsbD i =
      ((x.getLsbD i && y.getLsbD i) || (x.getLsbD i && z.getLsbD i) || (y.getLsbD i && z.getLsbD i)) := by
  have xor_pairs_eq_or_pairs : ∀ a b c : Bool, ((a && b) ^^ (a && c) ^^ (b && c)) = (a && b || a && c || b && c) := by
    decide
  rw [maj, xor32_getLsbD, xor32_getLsbD, and32_getLsbD, and32_getLsbD, and32_getLsbD, xor_pairs_eq_or_pairs]

/-- Settles O28: both functions at a bit below 32. -/
theorem choiceAndMajorityCompute : Obligations.ChoiceAndMajorityCompute := fun x y z i hi =>
  ⟨ch_getLsbD x y z hi, maj_getLsbD x y z i⟩

/-! ### The micro-steps -/

theorem microStep_loadwv {s : State} (hb : s.busy = true) (hp : s.phase = .loadwv) :
    microStep s = .next (loadwvNext (loadWv s)) := by
  simp only [microStep, busyMicro, hb, hp, if_true]

theorem microStep_round {s : State} (hb : s.busy = true) (hp : s.phase = .round) :
    microStep s = .next (roundNext (roundStep s s.seqStep)) := by
  simp only [microStep, busyMicro, hb, hp, if_true]

theorem microStep_fold {s : State} (hb : s.busy = true) (hp : s.phase = .fold) :
    microStep s = .next (foldNext (foldStep s)) := by
  simp only [microStep, busyMicro, hb, hp, if_true]

/-- FOLD's additions, each modulo 2^32 with no carry to the next word (43_compressor.md R182). -/
theorem foldWords_toNat (h v : Vector Word 8) (k : Fin 8) :
    (foldWords h v)[k].toNat = (h[k].toNat + v[k].toNat) % 2 ^ 32 := by
  have hword : (foldWords h v)[k] = add32 h[k] v[k] := Vector.getElem_ofFn k.isLt
  rw [hword, add32_toNat]

end Sys2Proof.Machine

/-! The statements about the micro-steps, outside `Machine`, where `roundStep` and `foldStep` are the datapath parts. -/

namespace Sys2Proof.Compressor

open Sys2Proof.Machine

/-- Settles O35: LOADWV's two parts in one record. -/
theorem loadwvStep : Obligations.LoadwvStep := fun _ hb hp => microStep_loadwv hb hp

/-- Settles O36: ROUND(i) on the old values, and RoundNext for i < 63 and i = 63. -/
theorem roundStep : Obligations.RoundStep := by
  intro s i T1 T2 hb hp hi hT1 hT2
  obtain rfl : i = ⟨s.seqStep.toNat, s.seqStep.isLt⟩ := Fin.ext hi.symm
  subst hT1 hT2
  rw [microStep_round hb hp]
  rcases seqStep_lt_or_eq s.seqStep with hmore | hlast
  · rw [roundNext_more (by exact hmore), if_neg hmore.ne, if_neg hmore.ne, ← hp]
    rfl
  · rw [roundNext_last (by exact hlast), if_pos hlast, if_pos hlast]
    rfl

/-- Settles O37: the sums are `foldWords` of the values before the step. -/
theorem foldStep : Obligations.FoldStep := fun s hb hp =>
  ⟨foldWords s.h s.wv, microStep_fold hb hp, foldWords_toNat s.h s.wv⟩

end Sys2Proof.Compressor
end

section
/-!
SUPPORT. hexchar by value (44_formatter.md R200), what the micro-step FORMAT is as an outcome (45_commands.md R220), HEX
by word and nibble (44_formatter.md R201), and the block count FORMAT finds; with them the statements about the
formatter.
-/

namespace Sys2Proof.Machine

/-! ### HEX -/

/-- The digits 0 to 9 from 0x30 and the letters a to f from 0x61; neither sum leaves the byte. -/
theorem hexChar_toNat (n : BitVec 4) :
    (hexChar n).toNat = if n.toNat < 10 then 0x30 + n.toNat else 0x61 + (n.toNat - 10) := by
  have hn : n.toNat < 16 := n.isLt
  rw [hexChar]
  split_ifs with hdigit
  · rw [BitVec.toNat_add, BitVec.toNat_setWidth, BitVec.toNat_ofNat]
    omega
  · rw [BitVec.toNat_add, BitVec.toNat_sub, BitVec.toNat_setWidth, BitVec.toNat_ofNat, BitVec.toNat_ofNat]
    omega

/-- Settles O29: the digits and the letters. -/
theorem hexCharacterCodes : Obligations.HexCharacterCodes := hexChar_toNat

/-- Character 8k + m is nibble m of word k, its bits 31−4m to 28−4m (44_formatter.md R201). -/
theorem hexDigits_getElem (h : Vector Word 8) (k m : Fin 8) :
    (hexDigits h)[8 * k.val + m.val] = hexChar (h[k].extractLsb' (28 - 4 * m.val) 4) := by
  have hword : (8 * k.val + m.val) / 8 = k.val := by omega
  have hnibble : (8 * k.val + m.val) % 8 = m.val := by omega
  simp only [hexDigits, Vector.getElem_ofFn, hword, hnibble, nibble, Fin.getElem_fin]

/-! ### The micro-step -/

theorem microStep_format {s : State} (hb : s.busy = true) (hp : s.phase = .format) :
    microStep s = .next (formatNext (formatStep s)) := by
  simp only [microStep, busyMicro, hb, hp, if_true]

/-- FORMAT and FormatNext in one record. -/
theorem formatNext_formatStep (s : State) :
    formatNext (formatStep s) =
      { s with hex := hexDigits s.h, phase := .idle, seqStep := 0#6, busy := false, done := true } := by
  rw [formatNext, formatStep]

end Sys2Proof.Machine

/-! The statement about the micro-step, outside `Machine`, where `formatStep` is the datapath part. -/

namespace Sys2Proof.Formatter

open Sys2Proof.Machine

/-- Settles O38: the characters are `hexDigits` of H, which FORMAT does not change. -/
theorem formatStep : Obligations.FormatStep := fun s hb hp =>
  ⟨hexDigits s.h, (microStep_format hb hp).trans (congrArg _ (formatNext_formatStep s)), hexDigits_getElem s.h⟩

end Sys2Proof.Formatter

namespace Sys2Proof.Safety

open Sys2Proof.Machine Sys2Proof.Document

/-- The digest folds all NBLK blocks of the padded message (45_commands.md R230). -/
theorem sha256_message (s : State) : sha256 (message s) = hashBlocks (padMessage (message s)) (nblkOf s.len) := by
  rw [sha256, padMessage_message_length, plenOf, Nat.mul_div_cancel_left _ (by decide)]

theorem nblkOf_len_eq (s : State) : nblkOf s.len = ((message s).length + 72) / 64 := by
  rw [message_length, nblkOf]

theorem Inv.busy_of_format {s : State} (hi : Inv s) (hp : s.phase = .format) : s.busy = true := by
  rw [hi.busyActive, hp]
  rfl

/-- FORMAT is reached when every block of the message is folded (45_commands.md R224). -/
theorem Inv.blkCnt_of_format {s : State} (hi : Inv s) (hp : s.phase = .format) : s.blkCnt.toNat = nblkOf s.len := by
  rw [hi.blkEnd (.inr hp)]
  exact hi.nblkRunning (hi.busy_of_format hp)

/-- With all blocks folded, H holds the digest, and FORMAT writes its characters and ends the HASH. -/
theorem HashProgress.format_delivered {s : State} (hi : Inv s) (hs : HashProgress s) (hp : s.phase = .format) :
    Delivered (formatNext (formatStep s)) (message s) := by
  have hblk := hi.blkCnt_of_format hp
  obtain ⟨hfolded, hw, hv⟩ := (hashProgress_format_iff hp).1 hs
  have hh : s.h = sha256 (message s) := by
    rw [sha256_message, ← hblk]
    exact hfolded
  rw [hblk, nblkOf_len_eq] at hw hv
  exact {
    h := by rw [formatNext_h, formatStep_h, hh]
    hex := by rw [formatNext_hex, formatStep_hex, hexDigits_format, hh, digest]
    w := by rw [formatNext_w, formatStep_w, hw]
    wv := by rw [formatNext_wv, formatStep_wv, formatNext_w, formatStep_w, hv]
    busy := formatNext_busy _
    done := formatNext_done _
    phase := formatNext_phase _
    seqStep := formatNext_seqStep _
    blkCnt := by rw [formatNext_blkCnt, formatStep_blkCnt, hblk, nblkOf_len_eq]
    nblk := by
      rw [formatNext_nblk, formatStep_nblk, hi.nblkRunning (hi.busy_of_format hp), nblkOf_len_eq] }

/-- Settles O56: in FORMAT the micro-step completes with FORMAT's one outcome, which is the end state. -/
theorem formatDeliversTheDigest : Obligations.FormatDeliversTheDigest := by
  intro s t hi hs hp h
  rw [microStep_format (hi.busy_of_format hp) hp, Host.Outcome.next.injEq] at h
  exact h ▸ hs.format_delivered hi hp

end Sys2Proof.Safety
end

section
/-!
SUPPORT. The commands as equations (45_commands.md R210 to R213), what none of them changes, and what the host can and
cannot touch while a HASH runs (R227); with them the statements about one command, the idle sequencer and the host's
transactions.
-/

namespace Sys2Proof.Machine

theorem unlessBusy_idle {s : State} (hb : s.busy = false) (k : State → Result) : unlessBusy s k = k s := by
  rw [unlessBusy, hb]
  rfl

theorem unlessBusy_busy {s : State} (hb : s.busy = true) (k : State → Result) :
    unlessBusy s k = .next (reject s .busy) := by
  rw [unlessBusy, if_pos hb]

theorem exec_busy {s : State} (hb : s.busy = true) (i : Instr) : exec i s = .next (reject s .busy) := by
  cases i with
  | nop => rw [exec, execNop, unlessBusy_busy hb]
  | init => rw [exec, execInit, unlessBusy_busy hb]
  | hash => rw [exec, execHash, unlessBusy_busy hb]

theorem command_busy {s : State} (hb : s.busy = true) (d : Word) : command s d = .next (reject s .busy) := by
  unfold command
  cases decode d with
  | ok i => exact exec_busy hb i
  | error => exact unlessBusy_busy hb _

theorem exec_nop_idle {s : State} (hb : s.busy = false) : exec .nop s = .next s := by
  rw [exec, execNop, unlessBusy_idle hb]

theorem exec_init_idle {s : State} (hb : s.busy = false) : exec .init s = .next (initExec s) := by
  rw [exec, execInit, unlessBusy_idle hb]

theorem initExec_initExec (s : State) : initExec (initExec s) = initExec s := rfl

theorem microStep_idle {s : State} (hb : s.busy = false) : microStep s = .next s := by
  rw [microStep, hb]
  rfl

end Sys2Proof.Machine

namespace Sys2Proof.Safety

open Sys2Proof.Machine

/-! ### The computation -/

theorem SameComputation.trans {s t u : State} (h : SameComputation s t) (h' : SameComputation t u) :
    SameComputation s u where
  h := h'.h.trans h.h
  wv := h'.wv.trans h.wv
  w := h'.w.trans h.w
  hex := h'.hex.trans h.hex
  msg := h'.msg.trans h.msg
  len := h'.len.trans h.len
  nblk := h'.nblk.trans h.nblk
  blkCnt := h'.blkCnt.trans h.blkCnt
  phase := h'.phase.trans h.phase
  seqStep := h'.seqStep.trans h.seqStep
  busy := h'.busy.trans h.busy
  done := h'.done.trans h.done

theorem sameComputation_respond (s : State) (r : Response) : SameComputation s (respond s r) := by
  constructor <;> rfl

/-! ### The commands -/

/-- Settles O6: the placed word is the host's write of the command, and that write is `exec`. -/
theorem placedCommandRunsNext : Obligations.PlacedCommandRunsNext := by
  intro s i
  calc step (s.withFetchWord 32 (encode i).toNat)
    _ = step (placeCommand s (encode i)) := by rw [State.withFetchWord, tableWord_toNat]
    _ = transact (beginTurn (placeCommand s (encode i)) s.inputs) (.write ctrlOffset (encode i) 0b1111#4) :=
      step_bus rfl
    _ = exec i (respond (beginTurn (placeCommand s (encode i)) s.inputs) (.write false)) := issue_eq _ i

/-- Settles O7: NOP passes or is rejected, and a write with no strobe is no command. -/
theorem nopChangesNothing : Obligations.NopChangesNothing :=
  ⟨decode_encode .nop, fun s => ⟨exec_nop_idle, fun hb => exec_busy hb .nop,
    fun d => zeroStrobeWriteHasNoEffect s 0x00000004#32 d rfl⟩⟩

/-- Settles O8: INIT's new values, its rejection, and that the new values are those of INIT again. -/
theorem initLoadsTheInitialValue : Obligations.InitLoadsTheInitialValue := by
  refine ⟨decode_encode .init, fun s => ⟨exec_init_idle, fun hb => exec_busy hb .init, fun t hb h => ?_⟩⟩
  rw [exec_init_idle hb, Host.Outcome.next.injEq] at h
  rw [← h, exec_init_idle (initExec_busy s ▸ hb), initExec_initExec]

/-- Settles O9: the accepted HASH's new values, field by field. -/
theorem hashIsAccepted : Obligations.HashIsAccepted := fun _ hb hl => exec_hash_accept hb hl

/-- What every completed command leaves as it was. -/
theorem exec_keeps {i : Instr} {s t : State} (h : exec i s = .next t) :
    t.wv = s.wv ∧ t.w = s.w ∧ t.len = s.len ∧ t.msg = s.msg ∧ t.errCmd = s.errCmd ∧ t.errWr = s.errWr ∧
      SameModelFields s t := by
  rcases exec_cases i s with ⟨_, e⟩ | ⟨_, _, e⟩ | ⟨_, _, e⟩ | ⟨_, _, _, e⟩ | ⟨_, _, _, e⟩ <;>
    · obtain rfl := Host.Outcome.next.inj (e.symm.trans h)
      exact ⟨rfl, rfl, rfl, rfl, rfl, rfl, rfl, rfl, rfl, rfl⟩

/-- Settles O13, by what a command can be: rejected while BUSY = 1, NOP, INIT, a HASH too long, or an accepted HASH. -/
theorem commandFrame : Obligations.CommandFrame := by
  intro i s t h
  obtain ⟨hwv, hw, hlen, hmsg, herrCmd, herrWr, hfields⟩ := exec_keeps h
  refine ⟨hwv, hw, hlen, fun a => by rw [hmsg], herrCmd, herrWr, hfields, ?_⟩
  rcases exec_cases i s with ⟨hb, e⟩ | ⟨hb, rfl, e⟩ | ⟨hb, rfl, e⟩ | ⟨hb, rfl, _, e⟩ | ⟨hb, rfl, _, e⟩ <;>
    obtain rfl := Host.Outcome.next.inj (e.symm.trans h)
  · exact ⟨fun _ => ⟨rfl, rfl⟩, fun _ => ⟨rfl, rfl, rfl, rfl, rfl, rfl, rfl⟩, by simp [hb],
      fun _ => ⟨sameComputation_reject s .busy, rfl⟩⟩
  · simp [hb]
  · simp [hb]
  · simp [hb]
  · simp [hb]

/-! ### While a HASH runs, and while none does -/

/-- Settles O48: while BUSY = 1 a transaction answers, and at most raises or clears error bits. -/
theorem transactionsWhileBusyLeaveTheHashAlone : Obligations.TransactionsWhileBusyLeaveTheHashAlone := by
  intro s t x hb h
  have hidle {p : Prop} (hi : s.busy = false) : p := absurd (hi.symm.trans hb) Bool.false_ne_true
  obtain ⟨r, hr⟩ := transact_next h
  have hrespond := sameComputation_respond s r
  have hreject (e : ErrBit) : SameComputation s (reject (respond s r) e) := hrespond.trans (sameComputation_reject _ e)
  rcases hr with rfl | ⟨_, _, _, _, h⟩ | ⟨_, _, _, _, rfl⟩ | ⟨_, _, _, _, ⟨_, rfl⟩ | ⟨hi, _⟩⟩ |
    ⟨_, _, _, _, ⟨_, rfl⟩ | ⟨hi, _⟩⟩ | ⟨_, _, _, _, _, _, _, ⟨_, rfl⟩ | ⟨hi, _⟩⟩
  · exact hrespond
  · rw [command_busy (s := respond s r) hb, Host.Outcome.next.injEq] at h
    exact h ▸ hreject .busy
  · exact hrespond.trans (sameComputation_clearErrors _ _)
  · exact hreject .wr
  · exact hidle hi
  · exact hreject .wr
  · exact hidle hi
  · exact hreject .wr
  · exact hidle hi

/-- Settles O39: a turn without a step passes. -/
theorem idleSequencerChangesNothing : Obligations.IdleSequencerChangesNothing := fun _ hb => microStep_idle hb

end Sys2Proof.Safety
end

section
/-!
SUPPORT. What can stop a turn (60_exceptions.md R248): in a state that meets the invariant every turn completes, but for
a read of an UNWRITTEN byte by LOADW or by the host; with it O54.
-/

namespace Sys2Proof.Safety

open Sys2Proof.Machine

/-! ### The host's transactions -/

/-- If `x` is a read of message bytes, none of them is UNWRITTEN. -/
def ReadsWritten (s : State) (x : Txn) : Prop :=
  ∀ a, x = .read a → a.toNat % 4 = 0 → InMsgWindow s a → ∀ i < 4, (s.msg.read (a.toNat - msgBase + i)).isSome

theorem command_completes (s : State) (d : Word) : ∃ t, command s d = .next t := by
  rcases command_cases s d with ⟨_, e⟩ | ⟨_, _, e⟩ | ⟨_, _, e⟩ | ⟨_, _, e⟩ | ⟨_, _, _, e⟩ | ⟨_, _, _, e⟩ <;>
    exact ⟨_, e⟩

theorem storeUnlessBusy_completes (s s' : State) : ∃ t, storeUnlessBusy s s' = .next t := by
  unfold storeUnlessBusy
  split
  · exact ⟨_, rfl⟩
  · exact ⟨_, rfl⟩

theorem writeLoc_completes (s : State) (d : Word) (b : Strobe) (l : Loc) : ∃ t, writeLoc s d b l = .next t := by
  cases l with
  | ctrl => exact command_completes s _
  | lenLo => exact storeUnlessBusy_completes s _
  | lenHi => exact storeUnlessBusy_completes s _
  | msg => exact storeUnlessBusy_completes s _
  | _ => exact ⟨_, rfl⟩

theorem busWrite_completes (s : State) (a d : Word) (b : Strobe) : ∃ t, busWrite s a d b = .next t := by
  rcases busWrite_cases s a d b with ⟨_, e⟩ | ⟨_, _, e⟩ | ⟨_, _, e⟩
  · exact ⟨_, e⟩
  · exact ⟨_, e⟩
  · exact e ▸ writeLoc_completes _ d b _

/-- Only an offset in the window holds message bytes (20_memory.md R68). -/
theorem inMsgWindow_of_locAt {s : State} {a : Word} {j : Nat} (h : locAt s.config.msgCap a = .msg j) :
    InMsgWindow s a ∧ j = a.toNat - msgBase := by
  rcases locAt_cases s.config.msgCap a with ⟨_, e⟩ | ⟨_, e⟩ | ⟨_, e⟩ | ⟨_, e⟩ | ⟨hw, e⟩ | ⟨_, _, _, _, _, e⟩
  · rw [e] at h; cases h
  · rw [e] at h; cases h
  · rw [e] at h; cases h
  · rw [e] at h; cases h
  · exact ⟨hw, Loc.msg.inj (h.symm.trans e)⟩
  · exact absurd h (e j)

/-- A read whose word cannot be read covers an UNWRITTEN byte: MSG_CAP is a multiple of 4, so its four bytes exist. -/
theorem Inv.readLoc_error {s : State} (hi : Inv s) {a : Word} {f : Fault} (ha : a.toNat % 4 = 0)
    (h : readLoc s (locAt s.config.msgCap a) = .error f) : f = .unwrittenMsgRead ∧ ¬ ReadsWritten s (.read a) := by
  obtain ⟨j, i, hl, hlt, hread⟩ := Machine.readLoc_error h
  obtain ⟨hw, hj⟩ := inMsgWindow_of_locAt hl
  rw [hj] at hread
  have hcap : a.toNat - msgBase + i < s.config.msgCap.toNat := by
    obtain ⟨hmod, _, _⟩ := hi.configLegal
    obtain ⟨hlo, hhi⟩ := hw
    have hbase : msgBase = 0x00010000 := rfl
    omega
  rcases memRead_cases hcap with ⟨b, _, e⟩ | ⟨hnone, e⟩ <;> rw [e] at hread <;> cases hread
  refine ⟨rfl, fun hwritten => ?_⟩
  have hsome := hwritten a rfl ha hw i hlt
  rw [hnone] at hsome
  cases hsome

/-- A transaction completes, or is a read that covers an UNWRITTEN byte. -/
theorem Inv.transact_outcome {s : State} (hi : Inv s) (x : Txn) :
    (∃ t, transact s x = .next t) ∨ (¬ ReadsWritten s x ∧ transact s x = .fault .unwrittenMsgRead) := by
  cases x with
  | write a d b => exact .inl (busWrite_completes s a d b)
  | read a =>
    rcases busRead_cases s a with ⟨_, e⟩ | ⟨_, v, _, e⟩ | ⟨ha, f, hf, e⟩
    · exact .inl ⟨_, e⟩
    · exact .inl ⟨_, e⟩
    · obtain ⟨rfl, hunwritten⟩ := hi.readLoc_error ha hf
      exact .inr ⟨hunwritten, e⟩

/-! ### The sequencer -/

theorem microStep_sched {s : State} (hb : s.busy = true) (hp : s.phase = .sched) : microStep s = schedMicro s := by
  rw [microStep, if_pos hb, busyMicro, hp]

/-- LOADW reads below PLEN (41_padder.md R132). -/
theorem Inv.wordIndex_lt_plenOf {s : State} (hi : Inv s) (hb : s.busy = true) (hp : s.phase = .sched)
    (ht : s.seqStep.toNat < 16) : wordIndex s s.seqStep + 3 < plenOf s.len := by
  have hblk := hi.blkRunning (.inl hp)
  rw [hi.nblkRunning hb] at hblk
  rw [wordIndex, plenOf]
  omega

/-- LOADW's word can be loaded, or one of its four bytes is an UNWRITTEN byte of the message. -/
theorem Inv.padWord_outcome {s : State} (hi : Inv s) (hb : s.busy = true) (hp : s.phase = .sched)
    (ht : s.seqStep.toNat < 16) :
    (∃ x, padWord s (wordIndex s s.seqStep) = .ok x) ∨
    (¬ Written s ∧ padWord s (wordIndex s s.seqStep) = .error .unwrittenMsgRead) := by
  have hplen := hi.wordIndex_lt_plenOf hb hp ht
  rcases padWord_cases s (wordIndex s s.seqStep) with ⟨_, _, _, _, _, _, _, _, e⟩ | ⟨i, f, hlt, hf, e⟩
  · exact .inl ⟨_, e⟩
  · rcases pad_cases (hi.lenFits hb) (j := wordIndex s s.seqStep + i) (by omega) with ⟨b, hok, _⟩ | ⟨hlen, hnone, herr⟩
    · rw [hok] at hf; cases hf
    · rw [herr] at hf; cases hf
      refine .inr ⟨fun hw => ?_, e⟩
      have hsome := hw _ hlen
      rw [hnone] at hsome
      cases hsome

/-- A turn of the sequencer completes, or is a LOADW that needs an UNWRITTEN byte of the message. -/
theorem Inv.microStep_outcome {s : State} (hi : Inv s) :
    (∃ t, microStep s = .next t) ∨ (¬ Written s ∧ microStep s = .fault .unwrittenMsgRead) := by
  cases hb : s.busy with
  | false => exact .inl ⟨s, microStep_idle hb⟩
  | true =>
    have hactive : s.phase.active = true := hi.busyActive.symm.trans hb
    cases hp : s.phase with
    | loadwv => exact .inl ⟨_, microStep_loadwv hb hp⟩
    | round => exact .inl ⟨_, microStep_round hb hp⟩
    | fold => exact .inl ⟨_, microStep_fold hb hp⟩
    | format => exact .inl ⟨_, microStep_format hb hp⟩
    | sched =>
      rcases Nat.lt_or_ge s.seqStep.toNat 16 with hload | hexpand
      · rcases hi.padWord_outcome hb hp hload with ⟨x, hx⟩ | ⟨hw, hx⟩
        · exact .inl ⟨_, microStep_loadw hb hp hload hx⟩
        · refine .inr ⟨hw, ?_⟩
          rw [microStep_sched hb hp, schedMicro, if_pos ((seqStep_lt_iff (by omega)).2 hload), loadW, hx]
      · exact .inl ⟨_, microStep_expandw hb hp hexpand⟩
    | _ => rw [hp] at hactive; cases hactive

/-! ### A step -/

theorem Written.congr {s t : State} (hw : Written s) (hmsg : t.msg = s.msg) (hlen : t.len = s.len) : Written t := by
  rw [Written, hmsg, hlen]
  exact hw

/-- The sequencer's turn over a written message completes. -/
theorem Inv.step_completes {s : State} (hi : Inv s) (hw : Written s) (hturn : SequencerTurn s) :
    ∃ t, step s = .next t := by
  obtain ⟨rest, e⟩ := step_of_sequencerTurn hturn
  rw [e]
  rcases (hi.turnState (turnState_beginTurn s rest)).microStep_outcome with h | ⟨hunwritten, _⟩
  · exact h
  · exact absurd (hw.congr rfl rfl) hunwritten

/-- A step completes or meets the one model fault. -/
theorem Inv.step_outcome {s : State} (hi : Inv s) :
    (∃ t, step s = .next t) ∨ step s = .fault .unwrittenMsgRead := by
  have hi0 (rest : List Input) : Inv (beginTurn s rest) := hi.turnState (turnState_beginTurn s rest)
  rcases step_cases s with ⟨_, rest, e⟩ | ⟨x, rest, _, e⟩ | ⟨p, rest, _, e⟩ <;> rw [e]
  · exact (hi0 rest).microStep_outcome.imp_right And.right
  · exact ((hi0 rest).transact_outcome x).imp_right And.right
  · exact .inl ⟨_, rfl⟩

/-- Settles O54: a step completes or meets the one fault, and over a written message the sequencer's turn completes. -/
theorem onlyUnwrittenReadsStop : Obligations.OnlyUnwrittenReadsStop := by
  intro s hi
  refine ⟨fun f hf => ?_, fun r hr => ?_, hi.step_completes⟩
  · rcases hi.step_outcome with ⟨t, e⟩ | e <;> rw [e] at hf <;> cases hf
    rfl
  · rcases hi.step_outcome with ⟨t, e⟩ | e <;> rw [e] at hr <;> cases hr

end Sys2Proof.Safety
end

section
/-!
SUPPORT. The count of micro-steps to go (45_commands.md R226), phase by phase, and that each micro-step takes one off it;
with them O55.
-/

namespace Sys2Proof.Safety

open Sys2Proof.Machine

/-- A turn of the sequencer is a step of the core with no input left. -/
theorem Inv.microStep {s t : State} (hi : Inv s) (h : microStep s = .next t) : Inv t := by
  have h0 : TurnState { s with inputs := [] } s := ⟨by constructor <;> rfl, by constructor <;> rfl, rfl⟩
  have hi0 : Inv { s with inputs := [] } := { hi with }
  exact hi0.effect h0 (.of_microStep h0 (.inl rfl) h)

/-! ### The count by phase -/

theorem remaining_sched {s : State} (hp : s.phase = .sched) :
    remaining s = 130 * (s.nblk.toNat - s.blkCnt.toNat) + 1 - s.seqStep.toNat := by
  rw [remaining, hp]

theorem remaining_loadwv {s : State} (hp : s.phase = .loadwv) :
    remaining s = 130 * (s.nblk.toNat - s.blkCnt.toNat) + 1 - 64 := by
  rw [remaining, hp]

theorem remaining_round {s : State} (hp : s.phase = .round) :
    remaining s = 130 * (s.nblk.toNat - s.blkCnt.toNat) + 1 - 65 - s.seqStep.toNat := by
  rw [remaining, hp]

theorem remaining_fold {s : State} (hp : s.phase = .fold) :
    remaining s = 130 * (s.nblk.toNat - s.blkCnt.toNat) + 1 - 129 := by
  rw [remaining, hp]

theorem remaining_format {s : State} (hp : s.phase = .format) : remaining s = 1 := by
  rw [remaining, hp]

theorem remaining_idle {s : State} (hp : s.phase = .idle) : remaining s = 0 := by
  rw [remaining, hp]

/-- The phases a run reaches (10_state.md R33): no HASH runs, blocks are left, or FORMAT is. -/
theorem Inv.phase_cases {s : State} (hi : Inv s) :
    s.phase = .idle ∨ (s.phase = .sched ∨ s.phase = .loadwv ∨ s.phase = .round ∨ s.phase = .fold) ∨
      s.phase = .format := by
  obtain ⟨h6, h7⟩ := hi.phaseUsed
  cases hp : s.phase with
  | unused6 => exact absurd hp h6
  | unused7 => exact absurd hp h7
  | _ => simp

/-- While blocks are left, more than FORMAT is to go. -/
theorem Inv.one_lt_remaining {s : State} (hi : Inv s)
    (hp : s.phase = .sched ∨ s.phase = .loadwv ∨ s.phase = .round ∨ s.phase = .fold) : 1 < remaining s := by
  have hblk := hi.blkRunning hp
  have hstep := s.seqStep.isLt
  rcases hp with hp | hp | hp | hp
  · rw [remaining_sched hp]; omega
  · rw [remaining_loadwv hp]; omega
  · rw [remaining_round hp]; omega
  · rw [remaining_fold hp]; omega

/-- Nothing is to go exactly when no HASH runs. -/
theorem Inv.remaining_eq_zero_iff {s : State} (hi : Inv s) : remaining s = 0 ↔ s.busy = false := by
  rw [hi.busyActive]
  rcases hi.phase_cases with hp | hp | hp
  · simp [remaining_idle hp, hp, Phase.active]
  · have hgo : remaining s ≠ 0 := by have := hi.one_lt_remaining hp; omega
    have hactive : s.phase.active = true := by rcases hp with hp | hp | hp | hp <;> rw [hp] <;> rfl
    simp [hgo, hactive]
  · simp [remaining_format hp, hp, Phase.active]

/-- With one micro-step to go the sequencer is in FORMAT. -/
theorem Inv.phase_of_remaining_eq_one {s : State} (hi : Inv s) (h : remaining s = 1) : s.phase = .format := by
  rcases hi.phase_cases with hp | hp | hp
  · rw [remaining_idle hp] at h; cases h
  · have := hi.one_lt_remaining hp; omega
  · exact hp

/-! ### The count falls by one -/

/-- SchedNext goes to the next schedule word or to LOADWV, which is 64 micro-steps into the block. -/
theorem remaining_schedNext {s : State} (hp : s.phase = .sched) (hblk : s.blkCnt.toNat < s.nblk.toNat) :
    remaining (schedNext s) + 1 = remaining s := by
  rw [remaining_sched hp]
  rcases seqStep_lt_or_eq s.seqStep with hmore | hlast
  · rw [schedNext_more hmore, remaining_sched (by exact hp), seqStep_succ hmore]
    dsimp only
    omega
  · rw [schedNext_last hlast, remaining_loadwv rfl]
    dsimp only
    omega

theorem remaining_loadwvNext {s : State} (hp : s.phase = .loadwv) (hblk : s.blkCnt.toNat < s.nblk.toNat) :
    remaining (loadwvNext s) + 1 = remaining s := by
  rw [remaining_loadwv hp, remaining_round rfl, loadwvNext_nblk, loadwvNext_blkCnt, loadwvNext_seqStep,
    BitVec.toNat_ofNat]
  omega

/-- RoundNext goes to the next round or to FOLD, which is 129 micro-steps into the block. -/
theorem remaining_roundNext {s : State} (hp : s.phase = .round) (hblk : s.blkCnt.toNat < s.nblk.toNat) :
    remaining (roundNext s) + 1 = remaining s := by
  rw [remaining_round hp]
  rcases seqStep_lt_or_eq s.seqStep with hmore | hlast
  · rw [roundNext_more hmore, remaining_round (by exact hp), seqStep_succ hmore]
    dsimp only
    omega
  · rw [roundNext_last hlast, remaining_fold rfl]
    dsimp only
    omega

/-- FoldNext goes to the next block, or, with NBLK blocks folded, to FORMAT. -/
theorem remaining_foldNext {s : State} (hp : s.phase = .fold) (hblk : s.blkCnt.toNat < s.nblk.toNat) :
    remaining (foldNext s) + 1 = remaining s := by
  have hsucc := blkCnt_succ hblk
  rw [remaining_fold hp]
  by_cases hlast : s.blkCnt + 1#32 = s.nblk
  · rw [remaining_format (by rw [foldNext_phase, if_pos hlast]), ← hlast, hsucc]
    omega
  · rw [remaining_sched (by rw [foldNext_phase, if_neg hlast]), foldNext_nblk, foldNext_blkCnt, hsucc,
      foldNext_seqStep, BitVec.toNat_ofNat]
    have hmore := mt BitVec.eq_of_toNat_eq hlast
    omega

/-- Every micro-step of a running HASH takes one off the count. -/
theorem Inv.remaining_microStep {s t : State} (hi : Inv s) (hb : s.busy = true) (h : Machine.microStep s = .next t) :
    remaining t + 1 = remaining s := by
  rcases microStep_next h with ⟨hidle, _⟩ | ⟨_, hp, _, x, _, rfl⟩ | ⟨_, hp, _, rfl⟩ | ⟨_, hp, rfl⟩ | ⟨_, hp, rfl⟩ |
    ⟨_, hp, rfl⟩ | ⟨_, hp, rfl⟩
  · rw [hb] at hidle; cases hidle
  · exact remaining_schedNext (s := storeW s s.seqStep x) hp (hi.blkRunning (.inl hp))
  · exact remaining_schedNext (s := expandW s s.seqStep) hp (hi.blkRunning (.inl hp))
  · exact remaining_loadwvNext (s := loadWv s) hp (hi.blkRunning (.inr (.inl hp)))
  · exact remaining_roundNext (s := roundStep s s.seqStep) hp (hi.blkRunning (.inr (.inr (.inl hp))))
  · exact remaining_foldNext (s := foldStep s) hp (hi.blkRunning (.inr (.inr (.inr hp))))
  · rw [remaining_format hp, remaining_idle rfl]

/-- Settles O55: the count falls by one, and BUSY = 0 says that none is to go. -/
theorem microStepsCountDown : Obligations.MicroStepsCountDown := by
  intro s t hi hb h
  have hcount := hi.remaining_microStep hb h
  have hdone := (hi.microStep h).remaining_eq_zero_iff
  refine ⟨hcount, hdone.symm.trans ?_⟩
  omega

end Sys2Proof.Safety
end

section
/-!
SUPPORT. A HASH as a whole (45_commands.md R226, R230, R231): `InHash` says how far the HASH of one message is, whatever
stands between the micro-steps; a turn of the sequencer brings it one nearer and the host's transactions leave it where
it is. With it O57 to O59.
-/

namespace Sys2Proof.Safety

open Sys2Proof.Machine Sys2Proof.Document

/-! ### What a turn leaves alone -/

theorem SameErrors.trans {s t u : State} (h : SameErrors s t) (h' : SameErrors t u) : SameErrors s u where
  errCmd := h'.errCmd.trans h.errCmd
  errBusy := h'.errBusy.trans h.errBusy
  errLen := h'.errLen.trans h.errLen
  errWr := h'.errWr.trans h.errWr

/-- A micro-step writes neither what the host sets nor the error bits. -/
theorem microStep_keeps {s t : State} (h : microStep s = .next t) :
    t.msg = s.msg ∧ t.len = s.len ∧ t.config = s.config ∧ t.inputs = s.inputs ∧ SameErrors s t := by
  rcases microStep_next h with ⟨_, rfl⟩ | ⟨_, _, _, x, _, rfl⟩ | ⟨_, _, _, rfl⟩ | ⟨_, _, rfl⟩ | ⟨_, _, rfl⟩ |
    ⟨_, _, rfl⟩ | ⟨_, _, rfl⟩ <;>
    exact ⟨by simp, by simp, by simp, by simp, by constructor <;> simp⟩

theorem command_inputs {s t : State} {d : Word} (h : command s d = .next t) : t.inputs = s.inputs := by
  rcases command_cases s d with ⟨_, e⟩ | ⟨_, _, e⟩ | ⟨_, _, e⟩ | ⟨_, _, e⟩ | ⟨_, _, _, e⟩ | ⟨_, _, _, e⟩ <;>
    · obtain rfl := Host.Outcome.next.inj (e.symm.trans h)
      rfl

theorem transact_inputs {s t : State} {x : Txn} (h : transact s x = .next t) : t.inputs = s.inputs := by
  obtain ⟨r, hr⟩ := transact_next h
  rcases hr with rfl | ⟨_, _, _, _, h⟩ | ⟨_, _, _, _, rfl⟩ | ⟨_, _, _, _, ⟨_, rfl⟩ | ⟨_, rfl⟩⟩ |
    ⟨_, _, _, _, ⟨_, rfl⟩ | ⟨_, rfl⟩⟩ | ⟨_, _, _, _, _, _, _, ⟨_, rfl⟩ | ⟨_, rfl⟩⟩
  case inr.inl => exact (command_inputs h).trans (respond_inputs s r)
  all_goals rfl

/-- A step takes the first input away (20_memory.md R60). -/
theorem step_inputs {s t : State} (h : step s = .next t) : t.inputs = s.inputs.tail := by
  cases hin : s.inputs with
  | nil =>
    obtain ⟨_, _, _, hinputs, _⟩ := microStep_keeps ((step_empty hin).symm.trans h)
    exact hinputs
  | cons e rest =>
    cases e with
    | sequencer =>
      obtain ⟨_, _, _, hinputs, _⟩ := microStep_keeps ((step_sequencer hin).symm.trans h)
      exact hinputs
    | bus x => exact transact_inputs ((step_bus hin).symm.trans h)
    | reset p =>
      obtain rfl := Host.Outcome.next.inj ((step_reset hin).symm.trans h)
      exact resetStep_inputs _ p

/-- The count speaks of the computation only. -/
theorem remaining_congr {s t : State} (h : SameComputation s t) : remaining t = remaining s := by
  rw [remaining, remaining, h.phase, h.nblk, h.blkCnt, h.seqStep]

theorem ReadsWritten.congr {s t : State} {x : Txn} (h : ReadsWritten s x) (hmsg : t.msg = s.msg)
    (hconfig : t.config = s.config) : ReadsWritten t x := by
  unfold ReadsWritten InMsgWindow at h ⊢
  rw [hmsg, hconfig]
  exact h

/-! ### A running HASH -/

/-- `v` is in the HASH of the message that `s` holds, with `n` micro-steps to go; with none to go it has ended. -/
structure InHash (s : State) (n : Nat) (v : State) : Prop where
  inv : Inv v
  progress : HashProgress v
  toGo : remaining v = n
  msg : v.msg = s.msg
  len : v.len = s.len
  config : v.config = s.config

/-- An accepted HASH has all of its micro-steps to go (45_commands.md R226). -/
theorem inHash_hashAccept {s : State} (hi : Inv s) (hl : s.len.toNat ≤ s.config.msgCap.toNat) :
    InHash s (130 * nblkOf s.len + 1) (hashAccept s) where
  inv := hi.hashAccept hl
  progress := (hashProgress_sched_iff rfl).2 ⟨rfl, rfl⟩
  toGo := by rw [remaining_sched rfl, hashAccept_nblk, nblk_of_fits hl]; rfl
  msg := rfl
  len := rfl
  config := rfl

section
variable {s v : State} {n : Nat}

theorem InHash.busy (hv : InHash s (n + 1) v) : v.busy = true := by
  rw [← Bool.not_eq_false, ← hv.inv.remaining_eq_zero_iff, hv.toGo]
  exact Nat.succ_ne_zero n

theorem InHash.written (hv : InHash s n v) (hw : Written s) : Written v := hw.congr hv.msg hv.len

/-- A turn of the sequencer brings the end one nearer. -/
theorem InHash.sequencer (hv : InHash s (n + 1) v) (hturn : SequencerTurn v) {u : State} (h : step v = .next u) :
    InHash s n u ∧ SameErrors v u := by
  obtain ⟨rest, e⟩ := step_of_sequencerTurn hturn
  have hmicro : microStep (beginTurn v rest) = .next u := e.symm.trans h
  obtain ⟨hmsg, hlen, hconfig, _, herr⟩ := microStep_keeps hmicro
  have h0 := turnState_beginTurn v rest
  have hcount := (hv.inv.turnState h0).remaining_microStep hv.busy hmicro
  rw [remaining_congr h0.toSameComputation, hv.toGo] at hcount
  exact ⟨{
    inv := everyStepKeepsInvariant v u hv.inv h
    progress := everyStepKeepsHashProgress v u hv.inv hv.progress h
    toGo := Nat.succ.inj hcount
    msg := hmsg.trans hv.msg
    len := hlen.trans hv.len
    config := hconfig.trans hv.config }, h0.toSameErrors.trans herr⟩

/-- The last micro-step is FORMAT, which delivers the digest. -/
theorem InHash.delivered (hv : InHash s 1 v) (hturn : SequencerTurn v) {u : State} (h : step v = .next u) :
    Delivered u (message s) := by
  obtain ⟨rest, e⟩ := step_of_sequencerTurn hturn
  have h0 := turnState_beginTurn v rest
  rw [← message_congr (s := s) (t := beginTurn v rest) hv.msg hv.len]
  exact formatDeliversTheDigest (beginTurn v rest) u (hv.inv.turnState h0) (hv.progress.congr h0.toSameComputation)
    (hv.inv.phase_of_remaining_eq_one hv.toGo) (e.symm.trans h)

/-- A transaction that can be answered leaves the HASH where it is (45_commands.md R227). -/
theorem InHash.bus (hv : InHash s (n + 1) v) {x : Txn} {rest : List Input} (hin : v.inputs = .bus x :: rest)
    (hread : ReadsWritten s x) : ∃ u, step v = .next u ∧ InHash s (n + 1) u := by
  have h0 := turnState_beginTurn v rest
  have hread0 : ReadsWritten (beginTurn v rest) x := hread.congr hv.msg hv.config
  rcases (hv.inv.turnState h0).transact_outcome x with ⟨u, htransact⟩ | ⟨hunwritten, _⟩
  · have h : step v = .next u := (step_bus hin).trans htransact
    have hsame : SameComputation v u := h0.toSameComputation.trans
      (transactionsWhileBusyLeaveTheHashAlone (beginTurn v rest) u x hv.busy htransact)
    obtain ⟨_, _, hconfig⟩ := messageAndLengthWriters v u h
    exact ⟨u, h, {
      inv := everyStepKeepsInvariant v u hv.inv h
      progress := hv.progress.congr hsame
      toGo := (remaining_congr hsame).trans hv.toGo
      msg := hsame.msg.trans hv.msg
      len := hsame.len.trans hv.len
      config := hconfig.trans hv.config }⟩
  · exact absurd hread0 hunwritten

end

/-! ### Runs -/

/-- With no input waiting, k turns of the sequencer bring the end k nearer. -/
theorem InHash.run_empty {s v : State} {k n : Nat} (hw : Written s) (hv : InHash s (k + n) v) (hin : v.inputs = []) :
    ∃ u, run k v = .next u ∧ InHash s n u ∧ u.inputs = [] ∧ SameErrors v u := by
  induction k generalizing v with
  | zero => exact ⟨v, rfl, Nat.zero_add n ▸ hv, hin, rfl, rfl, rfl, rfl⟩
  | succ k ih =>
    rw [Nat.succ_add] at hv
    obtain ⟨v', hstep⟩ := hv.inv.step_completes (hv.written hw) (.inl hin)
    obtain ⟨hv', herr'⟩ := hv.sequencer (.inl hin) hstep
    have hin' : v'.inputs = [] := by rw [step_inputs hstep, hin, List.tail_nil]
    obtain ⟨u, hrun, hu, hinu, herr⟩ := ih hv' hin'
    exact ⟨u, (run_succ hstep).trans hrun, hu, hinu, herr'.trans herr⟩

/-- A turn that leaves the HASH of `s` to the sequencer: its own, or a transaction that can be answered. -/
def AdmittedTurn (s : State) : Input → Prop
  | .sequencer => True
  | .bus x => ReadsWritten s x
  | .reset _ => False

/-- Whatever the host does in between, the sequencer's turns are what brings the end nearer, one each. -/
theorem InHash.run_interleaved {s v : State} {ins rest : List Input} {n : Nat} (hw : Written s)
    (hadmitted : ∀ e ∈ ins, AdmittedTurn s e) (hv : InHash s (ins.count .sequencer + (n + 1)) v)
    (hin : v.inputs = ins ++ rest) :
    ∃ u, run ins.length v = .next u ∧ InHash s (n + 1) u ∧ u.inputs = rest := by
  induction ins generalizing v with
  | nil => exact ⟨v, rfl, by simpa using hv, hin⟩
  | cons e ins ih =>
    rw [List.forall_mem_cons] at hadmitted
    obtain ⟨he, hadmitted⟩ := hadmitted
    have hnext : ∃ v', step v = .next v' ∧ InHash s (ins.count .sequencer + (n + 1)) v' := by
      cases e with
      | sequencer =>
        have hturn : SequencerTurn v := .inr (by rw [hin]; rfl)
        rw [List.count_cons_self, Nat.succ_add] at hv
        obtain ⟨v', hstep⟩ := hv.inv.step_completes (hv.written hw) hturn
        obtain ⟨hv', _⟩ := hv.sequencer hturn hstep
        exact ⟨v', hstep, hv'⟩
      | bus x =>
        rw [List.count_cons_of_ne (by simp)] at hv
        exact hv.bus hin he
      | reset p => exact he.elim
    obtain ⟨v', hstep, hv'⟩ := hnext
    obtain ⟨u, hrun, hu, hinu⟩ := ih hadmitted hv' (by rw [step_inputs hstep, hin, List.cons_append, List.tail_cons])
    exact ⟨u, (run_succ hstep).trans hrun, hu, hinu⟩

/-- The last turn of the sequencer ends the HASH with the digest. -/
theorem InHash.last {s v : State} (hw : Written s) (hv : InHash s 1 v) (hturn : SequencerTurn v) :
    ∃ u, run 1 v = .next u ∧ Delivered u (message s) ∧ u.msg = s.msg ∧ u.len = s.len ∧ u.inputs = v.inputs.tail ∧
      SameErrors v u := by
  obtain ⟨u, hstep⟩ := hv.inv.step_completes (hv.written hw) hturn
  obtain ⟨hu, herr⟩ := hv.sequencer hturn hstep
  exact ⟨u, run_succ hstep, hv.delivered hturn hstep, hu.msg, hu.len, step_inputs hstep, herr⟩

/-! ### The statements -/

/-- Settles O57: the micro-steps count down from 130 · NBLK + 1, and the last one delivers the digest. -/
theorem acceptedHashDeliversTheDigest : Obligations.AcceptedHashDeliversTheDigest := by
  intro s t hi hb hl hw hin h
  obtain rfl := Host.Outcome.next.inj ((exec_hash_accept hb hl).symm.trans h)
  have hrun {k n : Nat} (hk : k + n = 130 * nblkOf s.len + 1) :
      ∃ v, run k (hashAccept s) = .next v ∧ InHash s n v ∧ v.inputs = [] ∧ SameErrors (hashAccept s) v :=
    InHash.run_empty hw (hk ▸ inHash_hashAccept hi hl) hin
  refine ⟨fun k hk => ?_, ?_⟩
  · obtain ⟨m, hm⟩ := Nat.exists_eq_add_of_le hk
    obtain ⟨v, hv, hhash, _⟩ := hrun (k := k) (n := m + 1) (by rw [nblkOf, hm]; rfl)
    exact ⟨v, hv, hhash.busy⟩
  · obtain ⟨v, hv, hhash, hinv, herrv⟩ := hrun rfl
    obtain ⟨u, hu, hdelivered, hmsg, hlen, _, herru⟩ := hhash.last hw (.inl hinv)
    have herr : SameErrors s (hashAccept s) := ⟨rfl, rfl, rfl, rfl⟩
    exact ⟨u, (run_add hv).trans hu, hdelivered, hmsg, hlen, herr.trans (herrv.trans herru)⟩

/-- Settles O58: the inputs before the last turn are admitted and hold all of the micro-steps but FORMAT. -/
theorem interleavedHashDeliversTheDigest : Obligations.InterleavedHashDeliversTheDigest := by
  intro s t ins rest hi hb hl hw hin hcount hreset hread h
  obtain rfl := Host.Outcome.next.inj ((exec_hash_accept hb hl).symm.trans h)
  have hadmitted : ∀ e ∈ ins, AdmittedTurn s e := by
    intro e he
    cases e with
    | sequencer => trivial
    | bus x => rintro a rfl; exact hread a he
    | reset p => exact hreset p he
  have hstart : InHash s (ins.count .sequencer + (0 + 1)) (hashAccept s) := hcount ▸ inHash_hashAccept hi hl
  obtain ⟨v, hv, hhash, hinv⟩ := hstart.run_interleaved hw hadmitted hin
  obtain ⟨u, hu, hdelivered, hmsg, hlen, hinu, _⟩ := hhash.last hw (.inr (by rw [hinv]; rfl))
  exact ⟨u, (run_add hv).trans hu, hdelivered, hmsg, hlen, by rw [hinu, hinv, List.tail_cons]⟩

/-- The end state of a HASH is determined by its message (45_commands.md R230). -/
theorem Delivered.unique {u u' : State} {m : List Byte} (hu : Delivered u m) (hu' : Delivered u' m) :
    u.h = u'.h ∧ u.hex = u'.hex ∧ u.w = u'.w ∧ u.wv = u'.wv ∧ u.blkCnt = u'.blkCnt ∧ u.nblk = u'.nblk ∧
      u.done = u'.done := by
  have hw : u.w = u'.w := Vector.toList_inj.1 (hu.w.trans hu'.w.symm)
  have hwv : Vars.ofState u.wv = Vars.ofState u'.wv := by rw [hu.wv, hu'.wv, hw]
  exact ⟨hu.h.trans hu'.h.symm, Vector.toList_inj.1 (hu.hex.trans hu'.hex.symm), hw, ofState_injective hwv,
    BitVec.eq_of_toNat_eq (hu.blkCnt.trans hu'.blkCnt.symm), BitVec.eq_of_toNat_eq (hu.nblk.trans hu'.nblk.symm),
    hu.done.trans hu'.done.symm⟩

/-- The message is LEN and the bytes below LEN, and nothing else of the memory. -/
theorem message_eq_of_read_eq {s s' : State} (hlen : s.len = s'.len)
    (hread : ∀ j < s.len.toNat, s.msg.read j = s'.msg.read j) : message s = message s' := by
  rw [message, message, ← hlen]
  refine List.map_congr_left fun j hj => ?_
  rw [hread j (List.mem_range.1 hj)]

/-- Settles O59: both end states are the one that O57 gives for the message. -/
theorem endStateDependsOnTheMessageOnly : Obligations.EndStateDependsOnTheMessageOnly := by
  intro s s' t t' hi hi' hb hb' hl hl' hw hw' hin hin' hlen hread h h'
  obtain ⟨_, u, hu, hdelivered, _⟩ := acceptedHashDeliversTheDigest s t hi hb hl hw hin h
  obtain ⟨_, u', hu', hdelivered', _⟩ := acceptedHashDeliversTheDigest s' t' hi' hb' hl' hw' hin' h'
  rw [← hlen] at hu'
  rw [← message_eq_of_read_eq hlen hread] at hdelivered'
  exact ⟨u, u', hu, hu', hdelivered.unique hdelivered'⟩

end Sys2Proof.Safety
end

section
/-!
SUPPORT. How a rejection arises and what it leaves (60_exceptions.md R241 to R247): each rejected transaction or command
as an equation, STATUS under `reject`, and the stop of LOADW (R248); with them the statements about the exceptions.
-/

namespace Sys2Proof.Machine

/-! ### Rejected commands and writes -/

theorem exec_hash_tooLong {s : State} (hb : s.busy = false) (hl : s.config.msgCap.toNat < s.len.toNat) :
    exec .hash s = .next (reject s .len) := by
  rw [exec, execHash, unlessBusy_idle hb, if_pos hl]

/-- A RESERVED word is no command (45_commands.md R210). -/
theorem command_reserved {s : State} {d : Word} (hd : ∃ r, decode d = .error r) : command s d = execReserved s := by
  obtain ⟨r, hr⟩ := hd
  rw [command, hr]

theorem execReserved_idle {s : State} (hb : s.busy = false) : execReserved s = .next (reject s .cmd) :=
  unlessBusy_idle hb _

theorem storeUnlessBusy_busy {s : State} (hb : s.busy = true) (s' : State) :
    storeUnlessBusy s s' = .next (reject s .wr) :=
  if_pos hb

/-- While BUSY = 1 a write of CTRL is lost, whatever its word (60_exceptions.md R242). -/
theorem ctrlWrite_busy {s : State} (hb : s.busy = true) (d : Word) {b : Strobe} (hne : b ≠ 0#4) :
    transact s (.write 0x00000004#32 d b) = .next (reject (respond s (.write false)) .busy) :=
  (ctrlWrite_of hne).trans (command_busy (s := respond s (.write false)) hb _)

/-- The turn of a command the host issues. -/
theorem step_issue {s : State} {i : Instr} {rest : List Input} (h : s.inputs = issue i :: rest) :
    step s = exec i (respond (beginTurn s rest) (.write false)) :=
  (step_bus h).trans (issue_eq _ i)

/-! ### LOADW over an UNWRITTEN byte -/

/-- Below LEN, PAD of an UNWRITTEN byte is the model fault, if the byte exists. -/
theorem pad_unwritten {s : State} {j : Nat} (hcap : s.len.toNat ≤ s.config.msgCap.toNat) (hj : j < s.len.toNat)
    (hnone : s.msg.read j = none) : pad s j = .error .unwrittenMsgRead := by
  rw [pad_of_lt_len hj, memRead, if_pos (by omega), hnone]

/-- A schedule word is loaded only if each of its four bytes is. -/
theorem pad_of_padWord {s : State} {j i : Nat} {x : Word} (h : padWord s j = .ok x) (hi : i < 4) :
    ∃ b, pad s (j + i) = .ok b := by
  obtain ⟨b0, b1, b2, b3, h0, h1, h2, h3, _⟩ := padWord_eq_ok_iff.1 h
  interval_cases i
  exacts [⟨b0, h0⟩, ⟨b1, h1⟩, ⟨b2, h2⟩, ⟨b3, h3⟩]

end Sys2Proof.Machine

namespace Sys2Proof.Safety

open Sys2Proof.Machine

/-! ### STATUS under a rejection -/

theorem errCode_inj {e e' : ErrBit} : errCode e = errCode e' ↔ e = e' := by
  cases e <;> cases e' <;> decide

/-- The cause code is the number of the error's STATUS bit (60_exceptions.md R247). -/
theorem statusWord_getLsbD_errCode (s : State) (e : ErrBit) : (statusWord s).getLsbD (errCode e) = errBit s e := by
  rw [statusWord_getLsbD]
  cases e <;> rfl

/-- The other bits of STATUS are those of BUSY and DONE, or 0. -/
theorem statusWord_getLsbD_of_ne_errCode (s : State) {n : Nat} (hn : ∀ e, n ≠ errCode e) :
    (statusWord s).getLsbD n = if n = 0 then s.busy else if n = 1 then s.done else false := by
  rw [statusWord_getLsbD, if_neg (show n ≠ 8 from hn .cmd), if_neg (show n ≠ 9 from hn .busy),
    if_neg (show n ≠ 10 from hn .len), if_neg (show n ≠ 11 from hn .wr)]

theorem statusWord_reject_getLsbD (s : State) (e : ErrBit) (n : Nat) :
    (statusWord (reject s e)).getLsbD n = ((statusWord s).getLsbD n || n == errCode e) := by
  by_cases hn : ∃ e', n = errCode e'
  · obtain ⟨e', rfl⟩ := hn
    rw [statusWord_getLsbD_errCode, statusWord_getLsbD_errCode, errBit_reject, beq_eq_decide]
    simp only [errCode_inj, eq_comm]
  · have hne : ∀ e', n ≠ errCode e' := not_exists.1 hn
    rw [statusWord_getLsbD_of_ne_errCode _ hne, statusWord_getLsbD_of_ne_errCode _ hne, reject_busy, reject_done,
      beq_false_of_ne (hne e), Bool.or_false]

theorem sameModelFields_reject (s : State) (e : ErrBit) : SameModelFields s (reject s e) :=
  ⟨reject_config s e, reject_inputs s e, reject_response s e, reject_draws s e⟩

/-- Settles O14, from the STATUS bit that a rejection sets and the frame of `reject`. -/
theorem rejectionSetsOneStatusBit : Obligations.RejectionSetsOneStatusBit := fun s e =>
  ⟨statusWord_reject_getLsbD s e, sameComputation_reject s e, sameModelFields_reject s e⟩

/-! ### The model fault of LOADW -/

theorem microStep_loadw_fault {s : State} {f : Fault} (hb : s.busy = true) (hp : s.phase = .sched)
    (ht : s.seqStep.toNat < 16) (hf : padWord s (wordIndex s s.seqStep) = .error f) : microStep s = .fault f := by
  rw [microStep_sched hb hp, schedMicro, if_pos ((seqStep_lt_iff (by omega)).2 ht), loadW, hf]

/-- Settles O33: the word cannot be loaded, and the invariant leaves no other reason than an UNWRITTEN byte. -/
theorem loadwFaultsOnUnwrittenByte : Obligations.LoadwFaultsOnUnwrittenByte := by
  intro s i hi hb hp ht hlt hlen hnone
  rcases hi.padWord_outcome hb hp ht with ⟨x, hx⟩ | ⟨_, hfault⟩
  · obtain ⟨b, hok⟩ := pad_of_padWord hx hlt
    have hpad : pad s (wordIndex s s.seqStep + i) = .error .unwrittenMsgRead :=
      pad_unwritten (hi.lenFits hb) hlen hnone
    rw [hpad] at hok
    cases hok
  · exact microStep_loadw_fault hb hp ht hfault

/-! ### FORMAT and a HASH write -/

theorem step_format {s : State} {rest : List Input} (hb : s.busy = true) (hp : s.phase = .format)
    (hin : s.inputs = .sequencer :: rest) : step s = .next (formatNext (formatStep (beginTurn s rest))) :=
  (step_sequencer hin).trans (microStep_format (s := beginTurn s rest) hb hp)

theorem step_issue_busy {s : State} {i : Instr} {rest : List Input} (hb : s.busy = true)
    (hin : s.inputs = issue i :: rest) :
    step s = .next (reject (respond (beginTurn s rest) (.write false)) .busy) :=
  (step_issue hin).trans (exec_busy (s := respond (beginTurn s rest) (.write false)) hb i)

theorem step_issue_hash_accept {s : State} {rest : List Input} (hb : s.busy = false)
    (hl : s.len.toNat ≤ s.config.msgCap.toNat) (hin : s.inputs = issue .hash :: rest) :
    step s = .next (hashAccept (respond (beginTurn s rest) (.write false))) :=
  (step_issue hin).trans (exec_hash_accept (s := respond (beginTurn s rest) (.write false)) hb hl)

/-- A HASH write after FORMAT is accepted: the core is idle, and the length still fits. -/
theorem run_format_hash {s : State} (hb : s.busy = true) (hp : s.phase = .format)
    (hl : s.len.toNat ≤ s.config.msgCap.toNat) (hin : s.inputs = [.sequencer, issue .hash]) :
    ∃ t, run 2 s = .next t ∧ t.busy = true ∧ t.errBusy = s.errBusy :=
  have hhash := step_issue_hash_accept (s := formatNext (formatStep (beginTurn s [issue .hash]))) (formatNext_busy _)
    (by simpa using hl) rfl
  ⟨_, (run_succ (step_format hb hp hin)).trans (run_succ hhash), hashAccept_busy _, by simp⟩

/-- A HASH write before FORMAT is lost, and the rejection leaves FORMAT to end the running HASH. -/
theorem run_hash_format {s : State} (hb : s.busy = true) (hp : s.phase = .format)
    (hin : s.inputs = [issue .hash, .sequencer]) :
    ∃ t, run 2 s = .next t ∧ t.busy = false ∧ t.done = true ∧ t.errBusy = true :=
  have hformat := step_format (s := reject (respond (beginTurn s [.sequencer]) (.write false)) .busy) hb hp rfl
  ⟨_, (run_succ (step_issue_busy hb hin)).trans (run_succ hformat), rfl, rfl, rfl⟩

/-- Settles O50: in FORMAT the core is busy and its length fits, and the two orders are the two runs. -/
theorem bothOrdersAtFormatAreAdmitted : Obligations.BothOrdersAtFormatAreAdmitted := by
  intro s hi hp
  have hb := hi.busy_of_format hp
  exact ⟨run_format_hash (s := { s with inputs := [.sequencer, issue .hash] }) hb hp (hi.lenFits hb) rfl,
    run_hash_format (s := { s with inputs := [issue .hash, .sequencer] }) hb hp rfl⟩

/-! ### The causes of a rejection -/

/-- Settles O10: too long a HASH is the rejection, which leaves BUSY = 0, and every other is accepted. -/
theorem hashLengthCheck : Obligations.HashLengthCheck := by
  intro s hb
  refine ⟨exec_hash_tooLong hb, fun ⟨t, h, hbusy⟩ => Nat.le_of_not_lt fun hl => ?_, fun hl =>
    ⟨_, exec_hash_accept hb hl, rfl⟩⟩
  obtain rfl := Host.Outcome.next.inj ((exec_hash_tooLong hb hl).symm.trans h)
  rw [reject_busy, hb] at hbusy
  cases hbusy

/-- Settles O11: the check of BUSY comes before the meaning of every command and before the decoder's answer. -/
theorem commandWhileBusyIsLost : Obligations.CommandWhileBusyIsLost := fun _ hb =>
  ⟨exec_busy hb, fun d _ hne => ctrlWrite_busy hb d hne⟩

/-- Settles O12: the decoder rejects the word, so the write is `execReserved`, and while BUSY = 1 it is lost. -/
theorem reservedWordIsRejected : Obligations.ReservedWordIsRejected := by
  intro s d b hne hreserved
  refine ⟨fun hb => ?_, fun hb => ctrlWrite_busy hb d hne⟩
  rw [ctrlWrite_of hne, command_reserved (decode_eq_error_iff.2 hreserved)]
  exact execReserved_idle (s := respond s (.write false)) hb

/-- Settles O21: the three kinds of location share the check of BUSY. -/
theorem lenAndMessageWritesWhileBusyAreDiscarded : Obligations.LenAndMessageWritesWhileBusyAreDiscarded := by
  intro s addr d b hbusy hne ha hl
  have hdiscard (s' : State) :
      storeUnlessBusy (respond s (.write false)) s' = .next (reject (respond s (.write false)) .wr) :=
    storeUnlessBusy_busy (s := respond s (.write false)) hbusy s'
  rw [busWrite_of ha hne]
  rcases hl with rfl | rfl | hw
  · exact hdiscard _
  · exact hdiscard _
  · rw [locAt_msgWindow hw]
    exact hdiscard _

end Sys2Proof.Safety
end

section
/-!
SUPPORT. The reset step (70_reset_and_hazards.md R270) and the host's procedure for a digest (R273, 30_encoding.md R98):
what LOADMSG leaves in MSG and SETLEN in LEN, from any idle state; with them O40 and O60.
-/

namespace Sys2Proof.Safety

open Sys2Proof.Machine

/-! ### Reset -/

/-- Settles O40: the turn begins with no response, and the laws of the reset step say what it leaves and answers. -/
theorem resetClearsEverythingButMsg : Obligations.ResetClearsEverythingButMsg := by
  intro s p rest hin
  refine ⟨resetStep (beginTurn s rest) p, step_reset hin, resetStep_h _ _, resetStep_wv _ _, resetStep_w _ _,
    resetStep_hex _ _, resetStep_len _ _, resetStep_nblk _ _, resetStep_blkCnt _ _, resetStep_phase _ _,
    resetStep_seqStep _ _, resetStep_busy _ _, resetStep_done _ _, resetStep_errCmd _ _, resetStep_errBusy _ _,
    resetStep_errLen _ _, resetStep_errWr _ _, resetStep_msg _ _, resetStep_config _ _, resetStep_inputs _ _, ?_, ?_,
    ?_⟩
  · rintro a rfl
    rw [resetStep_response_some, resetResponse_read]
  · rintro a d b rfl ha
    rw [resetStep_response_some, resetResponse_write_aligned _ ((Txn.aligned_iff _).2 ha)]
  · rintro rfl
    rw [resetStep_response_none, beginTurn_response]

/-! ### LOADMSG -/

/-- A write of `d` with strobe `b` carries the first four bytes of `m`, or as many as there are: its enabled lanes are
those bytes. -/
def Carries (d : Word) (b : Strobe) (m : List Byte) : Prop :=
  ∀ i < 4, m[i]? = if b.getLsbD i then some (lane d i) else none

theorem carries_wordOfLanes {b0 b1 b2 b3 : Byte} {b : Strobe} {m : List Byte}
    (h0 : m[0]? = if b.getLsbD 0 then some b0 else none) (h1 : m[1]? = if b.getLsbD 1 then some b1 else none)
    (h2 : m[2]? = if b.getLsbD 2 then some b2 else none) (h3 : m[3]? = if b.getLsbD 3 then some b3 else none) :
    Carries (wordOfLanes b0 b1 b2 b3) b m := by
  obtain ⟨e0, e1, e2, e3⟩ := lane_wordOfLanes b0 b1 b2 b3
  intro i hi
  interval_cases i
  · rw [e0, h0]
  · rw [e1, h1]
  · rw [e2, h2]
  · rw [e3, h3]

/-- No byte is carried without a strobe. -/
theorem Carries.strobe_ne_zero {d : Word} {b : Strobe} {m : List Byte} (h : Carries d b m) (hm : m ≠ []) :
    b ≠ 0#4 := by
  rintro rfl
  have hnone : m[0]? = none := h 0 (by decide)
  exact hm (List.eq_nil_of_length_eq_zero (Nat.le_zero.1 (List.getElem?_eq_none_iff.1 hnone)))

/-- LOADMSG goes word by word, the last word with fewer bytes. -/
theorem loadMsgFrom_eq_cons (j : Nat) {m : List Byte} (hm : m ≠ []) :
    ∃ d b, Carries d b m ∧
      loadMsgFrom j m = wrStrobe (BitVec.ofNat 32 (msgBase + j)) d b :: loadMsgFrom (j + 4) (m.drop 4) :=
  match m, hm with
  | [_], _ => ⟨_, _, carries_wordOfLanes rfl rfl rfl rfl, rfl⟩
  | [_, _], _ => ⟨_, _, carries_wordOfLanes rfl rfl rfl rfl, rfl⟩
  | [_, _, _], _ => ⟨_, _, carries_wordOfLanes rfl rfl rfl rfl, rfl⟩
  | _ :: _ :: _ :: _ :: _, _ => ⟨_, _, carries_wordOfLanes rfl rfl rfl rfl, rfl⟩

/-- The turn of an aligned host write with a strobe set. -/
theorem step_wrStrobe {s : State} {a d : Word} {b : Strobe} {rest : List Input} (ha : a.toNat % 4 = 0) (hb : b ≠ 0#4)
    (hin : s.inputs = wrStrobe a d b :: rest) :
    step s = writeLoc (respond (beginTurn s rest) (.write false)) d b (locAt s.config.msgCap a) :=
  (step_bus hin).trans (busWrite_of (s := beginTurn s rest) ha hb)

/-- The turn of a word that LOADMSG writes at message index `j`. -/
theorem step_msgWrite {s : State} {j : Nat} {d : Word} {b : Strobe} {rest : List Input} (hc : s.config.Legal)
    (hbusy : s.busy = false) (hj : j < s.config.msgCap.toNat) (hmod : j % 4 = 0) (hb : b ≠ 0#4)
    (hin : s.inputs = wrStrobe (BitVec.ofNat 32 (msgBase + j)) d b :: rest) :
    step s = .next (storeMsg (respond (beginTurn s rest) (.write false)) j d b) := by
  have haddr : (BitVec.ofNat 32 (msgBase + j)).toNat = msgBase + j := msgOffset_toNat hc hj
  have hloc : locAt s.config.msgCap (BitVec.ofNat 32 (msgBase + j)) = .msg j := locAt_msgOffset hc hj
  have hbase : msgBase = 0x00010000 := rfl
  rw [step_wrStrobe (by omega) hb hin, hloc]
  exact storeUnlessBusy_idle (s := respond (beginTurn s rest) (.write false)) hbusy _

/-- `t` meets the invariant and is idle, and its memory is that of `s` with the bytes of `m` from index `j` on. -/
structure Loaded (s : State) (j : Nat) (m : List Byte) (t : State) : Prop where
  inv : Inv t
  busy : t.busy = false
  config : t.config = s.config
  read : ∀ a, t.msg.read a = if a < j then s.msg.read a else m[a - j]?.or (s.msg.read a)

/-- The word at `j`, and then the rest of the message from `j + 4` on. -/
theorem Loaded.of_storeMsg {s s' t : State} {j : Nat} {m : List Byte} {d : Word} {b : Strobe}
    (h : Loaded s' (j + 4) (m.drop 4) t) (hconfig : s'.config = s.config) (hmsg : s'.msg = writeLanes s.msg j d b)
    (hm : Carries d b m) : Loaded s j m t where
  inv := h.inv
  busy := h.busy
  config := h.config.trans hconfig
  read a := by
    rw [h.read, hmsg, writeLanes_read]
    by_cases hlo : a < j
    · rw [if_pos (by omega), if_neg (by omega), if_pos hlo]
    by_cases hhi : a < j + 4
    · rw [if_pos hhi, if_neg hlo, hm (a - j) (by omega)]
      by_cases hbit : b.getLsbD (a - j) = true
      · rw [if_pos ⟨by omega, hhi, hbit⟩, if_pos hbit, Option.some_or]
      · rw [if_neg (fun ⟨_, _, hbit'⟩ => hbit hbit'), if_neg hbit, Option.none_or]
    · rw [if_neg hhi, if_neg (by omega), if_neg hlo, List.getElem?_drop, show 4 + (a - (j + 4)) = a - j by omega]

/-- LOADMSG from an idle state: each word is one turn, and the bytes stand in MSG. -/
theorem run_loadMsgFrom {s : State} {j : Nat} {m : List Byte} {rest : List Input} (hi : Inv s) (hb : s.busy = false)
    (hmod : j % 4 = 0) (hfit : j + m.length ≤ s.config.msgCap.toNat) (hin : s.inputs = loadMsgFrom j m ++ rest) :
    ∃ t, run (loadMsgFrom j m).length s = .next t ∧ Loaded s j m t ∧ t.inputs = rest := by
  by_cases hm : m = []
  · subst hm
    exact ⟨s, rfl, ⟨hi, hb, rfl, fun a => by simp⟩, hin⟩
  · have hpos : 0 < m.length := List.length_pos_of_ne_nil hm
    obtain ⟨hcap, _, _⟩ := hi.configLegal
    obtain ⟨d, b, hcarries, hcons⟩ := loadMsgFrom_eq_cons j hm
    rw [hcons, List.cons_append] at hin
    have hstep := step_msgWrite hi.configLegal hb (by omega) hmod (hcarries.strobe_ne_zero hm) hin
    have hfit' : j + 4 + (m.drop 4).length ≤ s.config.msgCap.toNat := by rw [List.length_drop]; omega
    have hi' := everyStepKeepsInvariant _ _ hi hstep
    obtain ⟨t, hrun, hloaded, hinputs⟩ := run_loadMsgFrom hi' hb (by omega) hfit' rfl
    rw [hcons, List.length_cons, run_succ hstep]
    exact ⟨t, hrun, hloaded.of_storeMsg rfl rfl hcarries, hinputs⟩
termination_by m.length

/-! ### SETLEN -/

/-- With every strobe set the write takes all lanes. -/
theorem merge_allStrobes (x d : Word) : merge x d 0b1111#4 = d := by
  rw [merge, effective, show wmask 0b1111#4 = BitVec.allOnes 32 by decide, BitVec.not_allOnes, BitVec.and_zero,
    BitVec.and_allOnes, BitVec.zero_or]

theorem step_lenLo {s : State} {d : Word} {rest : List Input} (hb : s.busy = false)
    (hin : s.inputs = wr 0x00C#32 d :: rest) :
    step s = .next (setLenLo (respond (beginTurn s rest) (.write false)) d 0b1111#4) :=
  (step_wrStrobe rfl (by decide) hin).trans
    (storeUnlessBusy_idle (s := respond (beginTurn s rest) (.write false)) hb _)

theorem step_lenHi {s : State} {d : Word} {rest : List Input} (hb : s.busy = false)
    (hin : s.inputs = wr 0x010#32 d :: rest) :
    step s = .next (setLenHi (respond (beginTurn s rest) (.write false)) d 0b1111#4) :=
  (step_wrStrobe rfl (by decide) hin).trans
    (storeUnlessBusy_idle (s := respond (beginTurn s rest) (.write false)) hb _)

/-- SETLEN from an idle state: two turns, and LEN is the number given. -/
theorem run_setLen {s : State} {n : DWord} {rest : List Input} (hi : Inv s) (hb : s.busy = false)
    (hin : s.inputs = setLen n ++ rest) :
    ∃ t, run (setLen n).length s = .next t ∧ Inv t ∧ t.busy = false ∧ t.config = s.config ∧ t.msg = s.msg ∧
      t.len = n ∧ t.inputs = rest := by
  have hlo := step_lenLo hb hin
  have hhi := step_lenHi (d := n.extractLsb' 32 32) (rest := rest)
    (s := setLenLo (respond (beginTurn s _) (.write false)) (n.extractLsb' 0 32) 0b1111#4) hb rfl
  have hinv := everyStepKeepsInvariant _ _ (everyStepKeepsInvariant _ _ hi hlo) hhi
  have hrun := (run_succ (k := 1) hlo).trans (run_succ (k := 0) hhi)
  refine ⟨_, hrun, hinv, by simpa using hb, by simp, by simp, ?_, by simp⟩
  rw [setLenHi_len, respond_len, beginTurn_len, setLenLo_len, merge_allStrobes, merge_allStrobes,
    BitVec.extractLsb'_append_eq_right]
  exact BitVec.extractLsb'_append_extractLsb'

/-! ### The procedure -/

theorem message_eq_of_read {s : State} {m : List Byte} (hlen : s.len.toNat = m.length)
    (hread : ∀ j < m.length, s.msg.read j = m[j]?) : message s = m := by
  refine List.ext_getElem (by rw [message_length, hlen]) fun j _ hj => ?_
  simp [message, hread j hj, List.getElem?_eq_getElem hj]

theorem written_of_read {s : State} {m : List Byte} (hlen : s.len.toNat = m.length)
    (hread : ∀ j < m.length, s.msg.read j = m[j]?) : Written s := by
  intro j hj
  rw [hread j (hlen ▸ hj), List.getElem?_eq_getElem (hlen ▸ hj)]
  rfl

/-- The HASH the host issues, with no input after it: its turn and the turns of the sequencer. -/
theorem run_issue_hash {s : State} (hi : Inv s) (hb : s.busy = false) (hl : s.len.toNat ≤ s.config.msgCap.toNat)
    (hw : Written s) (hin : s.inputs = [issue .hash]) :
    ∃ u, run (1 + (130 * ((s.len.toNat + 72) / 64) + 1)) s = .next u ∧ Delivered u (message s) ∧ u.msg = s.msg ∧
      u.len = s.len := by
  have h0 : TurnState s (respond (beginTurn s []) (.write false)) :=
    ⟨by constructor <;> rfl, by constructor <;> rfl, rfl⟩
  obtain ⟨_, u, hrun, hdelivered, hmsg, hlen, _⟩ :=
    acceptedHashDeliversTheDigest _ _ (hi.turnState h0) hb hl hw rfl (exec_hash_accept hb hl)
  exact ⟨u, (run_add (run_succ (step_issue_hash_accept hb hl hin))).trans hrun, hdelivered, hmsg, hlen⟩

/-- Settles O60: LOADMSG, SETLEN and HASH one after the other, each from the state the one before it ends in. -/
theorem hostProcedureComputesSha256 : Obligations.HostProcedureComputesSha256 := by
  intro s m hi hb hfit hin
  obtain ⟨t, hrunt, ht, hint⟩ := run_loadMsgFrom (j := 0) hi hb rfl (by omega) (hin.trans (List.append_assoc _ _ _))
  obtain ⟨v, hrunv, hiv, hbv, hconfig, hmsg, hlen, hinv⟩ := run_setLen ht.inv ht.busy hint
  have hlen : v.len.toNat = m.length := by
    have := s.config.msgCap.isLt
    rw [hlen, BitVec.toNat_ofNat, Nat.mod_eq_of_lt (by omega)]
  have hread : ∀ j < m.length, v.msg.read j = m[j]? := by
    intro j hj
    rw [hmsg, ht.read, if_neg (Nat.not_lt_zero j), Nat.sub_zero, List.getElem?_eq_getElem hj, Option.some_or]
  have hcap : v.len.toNat ≤ v.config.msgCap.toNat := by
    rw [hlen, hconfig, ht.config]
    exact hfit
  obtain ⟨u, hrunu, hdelivered, hmsgu, hlenu⟩ := run_issue_hash hiv hbv hcap (written_of_read hlen hread) hinv
  rw [hlen] at hrunu
  rw [message_eq_of_read hlen hread] at hdelivered
  have hcount : (hashInputs m).length =
      (loadMsgFrom 0 m).length + ((setLen (BitVec.ofNat 64 m.length)).length + 1) := by
    simp [hashInputs, loadMsg]
  rw [hcount, Nat.add_assoc, Nat.add_assoc]
  exact ⟨u, (run_add hrunt).trans ((run_add hrunv).trans hrunu), hdelivered,
    (message_congr hmsgu hlenu).trans (message_eq_of_read hlen hread), hlenu ▸ hlen⟩

end Sys2Proof.Safety
end
